-- ==== Sys2Proof/Word.lean ====
section
/-! DEFINITION. The block's data words: the byte, the command/data flag, the nine-bit symbol and the nine-byte
transport frame. -/

namespace Sys2Proof

/-- Eight bits: a raw symbol byte, a transport byte, a packed byte (00_scope.md R10). -/
abbrev Byte := BitVec 8

/-- The command/data flag (30_encoding.md R80): `command` is the wire bit 0, `data` the wire bit 1. -/
inductive Flag where
  | command
  | data
  deriving DecidableEq, Repr, Inhabited

/-- One logical symbol: the flag `f` and the raw byte `d` (30_encoding.md R80). -/
structure Symbol where
  flag : Flag
  data : Byte
  deriving DecidableEq, Repr, Inhabited

/-- Nine transport bytes, `buf[0]` to `buf[8]` (10_state.md R23, 30_encoding.md R82). -/
abbrev Frame := Vector Byte 9

end Sys2Proof
end

