-- ==== Sys2Proof/Config.lean ====
section
/-! DEFINITION. What is fixed for one block: the constants and literals the spec gives, the types of the parameters it
takes, and the values it leaves open (opaque constants, no body). -/

namespace Sys2Proof

/-- The controller family, fixed at construction (00_scope.md R8). -/
inductive Family where
  | philips
  | epson
  deriving DecidableEq, Repr, Inhabited

/-- The Philips register map: the bytes PH_* that the spec names and gives no value (30_encoding.md R90, 92 D12). -/
structure PhilipsMap where
  sleepout : Byte
  bstron : Byte
  invoff : Byte
  colmod : Byte
  colmod12bit : Byte
  madctl : Byte
  madctlInit : Byte
  setcon : Byte
  contrast : Byte
  dispon : Byte
  dispoff : Byte
  sleepin : Byte
  caset : Byte
  paset : Byte
  ramwr : Byte
  deriving DecidableEq, Repr, Inhabited

/-- The Epson register map: the bytes EP_* that the spec names and gives no value (30_encoding.md R90, 92 D12). -/
structure EpsonMap where
  disctl : Byte
  disctlP1 : Byte
  disctlP3 : Byte
  comscn : Byte
  comscnP1 : Byte
  oscon : Byte
  slpout : Byte
  pwrctr : Byte
  pwrctrP1 : Byte
  disnor : Byte
  datctl : Byte
  datctlP1 : Byte
  datctlP2 : Byte
  datctlP3 : Byte
  volctr : Byte
  volP1 : Byte
  volP2 : Byte
  dison : Byte
  caset : Byte
  paset : Byte
  ramwr : Byte
  deriving DecidableEq, Repr, Inhabited

/-- The open part `pre` of EP_ON_SCRIPT (43_display_power_rotate.md R170): a non-empty list of symbols that begins with
a command; `first` is that command's byte, so the constraint holds by construction. -/
structure EpOnPre where
  first : Byte
  rest : List Symbol
  deriving DecidableEq, Repr, Inhabited

/-- Everything a construction fixes for the life of a session (00_scope.md R8, R9): the four construction parameters,
then the parameters the spec leaves open. -/
structure Params where
  family : Family
  resetLine : Nat
  chipSelect : Nat
  clockMhz : Nat
  spiBus : Nat
  philips : PhilipsMap
  epson : EpsonMap
  epOn : EpOnPre
  deriving DecidableEq, Repr, Inhabited

namespace Config

/-- 00_scope.md R7. -/
def panelWidth : Nat := 132
/-- 00_scope.md R7. -/
def panelHeight : Nat := 132
/-- Bytes of the normalised raster (00_scope.md R7): 52272. -/
def rasterBytes : Nat := panelWidth * panelHeight * 3
/-- Packed bytes of one raster (00_scope.md R7): 26136. -/
def packedBytes : Nat := (rasterBytes + 1) / 2

/-- PH_NOP, the Philips no-op command (30_encoding.md R91). -/
def phNop : Byte := 0x00#8
/-- EP_NOP, the Epson no-op command (30_encoding.md R91). -/
def epNop : Byte := 0x25#8
/-- EP_DISOFF, the Epson display-off command (30_encoding.md R91). -/
def epDisoff : Byte := 0xAE#8
/-- EP_SLPIN, the Epson sleep-in command (30_encoding.md R91). -/
def epSlpin : Byte := 0x95#8
/-- PH_ROT_NONE (30_encoding.md R91). -/
def phRotNone : Byte := 0x10#8
/-- PH_ROT_180 (30_encoding.md R91). -/
def phRot180 : Byte := 0xC0#8
/-- PH_ROT_90CW (30_encoding.md R91). -/
def phRot90cw : Byte := 0x70#8
/-- PH_ROT_90CCW (30_encoding.md R91). -/
def phRot90ccw : Byte := 0xB0#8

/-- `reset_line` has no default in the spec (00_scope.md R8): open. DESIGN CHOICE, log 8. -/
opaque resetLine : Nat
/-- SPI_BUS (00_scope.md R8, 92 D16): open. DESIGN CHOICE, log 8. -/
opaque spiBus : Nat
/-- The Philips register map (92 D12): open. DESIGN CHOICE, log 8. -/
opaque philipsMap : PhilipsMap
/-- The Epson register map (92 D12): open. DESIGN CHOICE, log 8. -/
opaque epsonMap : EpsonMap
/-- The open part of EP_ON_SCRIPT (92 D19): open. DESIGN CHOICE, log 8, log 10. -/
opaque epOnPre : EpOnPre
/-- FREE VALUE: the transport's answer to the n-th call that no listed answer covers, success or failure
(60_exceptions.md R192: "the environment may answer success or failure, freely"). Log 4. -/
opaque freeAnswer : Nat → Bool

/-- The construction parameters at their defaults (00_scope.md R8), the rest open. -/
def defaultParams : Params where
  family := .philips
  resetLine := resetLine
  chipSelect := 0
  clockMhz := 6
  spiBus := spiBus
  philips := philipsMap
  epson := epsonMap
  epOn := epOnPre

end Config
end Sys2Proof
end

