-- ==== Sys2Proof/Syntax.lean ====
section
/-! DEFINITION. The instructions: the eleven operations of 30_encoding.md R87 and the eleven named symbols of R101, one
constructor per row of spec/opcode_table.json, and the request that carries one. -/

namespace Sys2Proof

/-- One constructor per row of spec/opcode_table.json. -/
inductive Instr where
  /-- SUBMIT f, d (40_framer.md R110). -/
  | submit (f : Flag) (d : Byte)
  /-- FLUSH (40_framer.md R120). -/
  | flush
  /-- INITIALIZE (42_session.md R140). -/
  | initializeSession
  /-- DISPLAY raster (43_display_power_rotate.md R160): the raster is a value fixed at the call (20_memory.md R70). -/
  | display (raster : List Byte)
  /-- TURN_OFF (43_display_power_rotate.md R166). -/
  | turnOff
  /-- TURN_ON (43_display_power_rotate.md R168). -/
  | turnOn
  /-- ROTATE_NONE (43_display_power_rotate.md R172). -/
  | rotateNone
  /-- ROTATE_180 (43_display_power_rotate.md R173). -/
  | rotate180
  /-- ROTATE_90CW (43_display_power_rotate.md R174). -/
  | rotate90cw
  /-- ROTATE_90CCW (43_display_power_rotate.md R175). -/
  | rotate90ccw
  /-- CLOSE (42_session.md R148). -/
  | close
  /-- The symbol PH_NOP, `C 00` (30_encoding.md R101; log 2). -/
  | phNop
  /-- The symbol EP_NOP, `C 25`. -/
  | epNop
  /-- The symbol EP_DISOFF, `C AE`. -/
  | epDisoff
  /-- The symbol EP_SLPIN, `C 95`. -/
  | epSlpin
  /-- The symbol PH_ROT_NONE, `D 10`. -/
  | phRotNone
  /-- The symbol PH_ROT_180, `D C0`. -/
  | phRot180
  /-- The symbol PH_ROT_90CW, `D 70`. -/
  | phRot90cw
  /-- The symbol PH_ROT_90CCW, `D B0`. -/
  | phRot90ccw
  /-- The symbol ADDR_LOW, `D 00`. -/
  | addrLow
  /-- The symbol ADDR_HIGH, `D 83`. -/
  | addrHigh
  /-- The symbol EP_DISCTL_LINES, `D 20`. -/
  | epDisctlLines
  deriving DecidableEq, Repr

/-- A request as the caller issues it: the 13-bit word, and beside it DISPLAY's raster, which is a separate operand
(30_encoding.md R86). For every other operation the raster is not looked at. -/
structure Request where
  word : BitVec 13
  raster : List Byte
  deriving DecidableEq, Repr

end Sys2Proof
end

