-- ==== Sys2Proof/Machine/State.lean ====
section
/-! DEFINITION. The state of the block, the reasons a step can stop, and the state after reset. -/

namespace Sys2Proof.Machine

/-- 10_state.md R29. -/
inductive Lifecycle where
  | inert
  | operational
  | closed
  deriving DecidableEq, Repr

/-- What the block last did to `reset_line` (10_state.md R31). -/
inductive PinState where
  | unconfigured
  | outLow
  | outHigh
  deriving DecidableEq, Repr

/-- The level of a pin write (10_state.md R36). -/
inductive Level where
  | low
  | high
  deriving DecidableEq, Repr

/-- The bus bit order; the block asks for MSB first and nothing else (20_memory.md R53). -/
inductive BitOrder where
  | msbFirst
  deriving DecidableEq, Repr

/-- The six settle delays, by name; none has a duration (60_exceptions.md R207). -/
inductive Delay where
  | resetLow
  | resetHigh
  | phInit
  | epInit
  | phWake
  | epWake
  deriving DecidableEq, Repr

/-- What the block does that can be observed: the events of 10_state.md R36. -/
inductive Event where
  | busOpen (bus device : Nat)
  | busSetMode (mode : Nat)
  | busSetBitOrder (order : BitOrder)
  | busSetClock (hz : Nat)
  | pinConfigOutput (pin : Nat)
  | pinSet (pin : Nat) (level : Level)
  | delay (t : Delay)
  | busTransfer (bytes : Frame)
  | pinsReleased
  | busClose
  deriving DecidableEq, Repr

/-- The status an operation returns (60_exceptions.md R190). -/
inductive Status where
  | ok
  | notInitialized
  | alreadyClosed
  | unsupported
  | transportFailure
  | alreadyInitialized
  | illegalOp
  deriving DecidableEq, Repr

/-- What the transport does with one call: it succeeds, it fails (60_exceptions.md R192), or it never returns
(60_exceptions.md R214, 93 U10; log 6). -/
inductive Answer where
  | success
  | failure
  | noReturn
  deriving DecidableEq, Repr

/-- One item of a script (30_encoding.md R98): `C(v)` and `D(v)` submit a symbol, `W(T)` is a settle delay. -/
inductive Item where
  | sym (y : Symbol)
  | wait (t : Delay)
  deriving DecidableEq, Repr

/-- The whole state of one session. INVENTORY.md lists each field with its rule and reset value. -/
structure State where
  /-- What construction fixed (00_scope.md R8, R9); no operation changes it. -/
  params : Params
  /-- `k`, the position in the current nine-bit cycle (10_state.md R21). -/
  bitOffset : Fin 8
  /-- `prev`, the last raw byte submitted (10_state.md R22). -/
  previousSymbol : Byte
  /-- `buf[0..8]` (10_state.md R23). -/
  frameBuffer : Frame
  /-- 10_state.md R29. -/
  lifecycle : Lifecycle
  /-- `bus_open` (10_state.md R30). -/
  busOpen : Bool
  /-- `pin_state` (10_state.md R31). -/
  pinState : PinState
  /-- The sticky mark of a transport failure (10_state.md R32). -/
  fault : Bool
  /-- The event trace, oldest first (10_state.md R36). -/
  trace : List Event
  /-- The statuses returned so far, oldest first (60_exceptions.md R190, 92 D22; log 14). -/
  statuses : List Status
  /-- The requests the caller has issued and the block has not taken, oldest first (log 3). -/
  requests : List Request
  /-- The transport's coming answers, next first (60_exceptions.md R192; log 4). -/
  answers : List Answer
  /-- How many free answers have been used (log 4). -/
  drawn : Nat
  /-- A transport call has not returned (93 U10; log 6). -/
  hung : Bool
  deriving DecidableEq, Repr

/-- The reasons a step stops with a fault. -/
inductive Fault where
  /-- Raised by `step` on a block whose last transport call never returned: "the block makes no further step"
  (93 U10). Safe: the hardware does not go on either (log 6). -/
  | transportHung
  deriving DecidableEq, Repr

/-- The reasons a step is refused. -/
inductive Refusal where
  /-- Raised by an arm of `exec` whose instruction has no meaning yet. Safe: nothing is claimed of it. -/
  | notModelled (mnemonic : String)
  /-- Raised by DISPLAY on an Operational session whose raster is not exactly 52272 bytes (43 R161, 60 R213, 93 U12).
  Safe: nothing is claimed of it (log 12). -/
  | rasterLength
  deriving DecidableEq, Repr

/-- A session right after its construction with the parameters `p` (10_state.md R38, 70_reset_and_hazards.md R220):
inert, no bus or pin activity, the framer at a frame boundary. -/
def State.construct (p : Params) : State where
  params := p
  bitOffset := 0
  previousSymbol := 0x00#8
  frameBuffer := Vector.replicate 9 0x00#8
  lifecycle := .inert
  busOpen := false
  pinState := .unconfigured
  fault := false
  trace := []
  statuses := []
  requests := []
  answers := []
  drawn := 0
  hung := false

/-- The machine right after reset: a construction with the default parameters (00_scope.md R8; log 8). -/
def State.reset : State := State.construct Config.defaultParams

end Sys2Proof.Machine
end

