-- ==== Sys2Proof/Machine/Flags.lean ====
section
/-! DEFINITION. The command/data flag in a transport byte, and the status codes. The block has no status flags that one
operation sets and a later one tests (10_state.md R27). -/

namespace Sys2Proof.Machine

/-- Step 3 of SUBMIT (40_framer.md R110): bit `7-k` is cleared for a command symbol and set for a data symbol. -/
def overlayFlag (k : Nat) (f : Flag) (shifted : Byte) : Byte :=
  match f with
  | .command => shifted &&& ~~~(1#8 <<< (7 - k))
  | .data => shifted ||| (1#8 <<< (7 - k))

/-- The numeric code of a status (60_exceptions.md R190). -/
def Status.code : Status → Nat
  | .ok => 0
  | .notInitialized => 1
  | .alreadyClosed => 2
  | .unsupported => 3
  | .transportFailure => 4
  | .alreadyInitialized => 5
  | .illegalOp => 6

end Sys2Proof.Machine
end

