-- ==== Sys2Proof/Machine/Operands.lean ====
section
/-! DEFINITION. The computed operands: the transport byte, the packed pixel bytes, the address bounds, the line count,
the bus clock and the no-op byte (30_encoding.md R84, R85). -/

namespace Sys2Proof.Machine

/-- Steps 1 to 3 of SUBMIT (40_framer.md R110): the byte stored at position `k`. A shift by 8 gives 0 (00_scope.md R11,
40_framer.md R118), as a shift of a bit vector by a natural does. -/
def transportByte (k : Nat) (prev : Byte) (y : Symbol) : Byte :=
  let shifted := y.data >>> (k + 1)
  let shifted := if 0 < k then shifted ||| (prev <<< (8 - k)) else shifted
  overlayFlag k y.flag shifted

/-- PACK (41_pixel_packer.md R130, R131): two raw bytes to one packed byte, an odd last byte alone in the high nibble. -/
def pack : List Byte → List Byte
  | a :: b :: rest => ((a &&& 0xF0#8) ||| (b >>> 4)) :: pack rest
  | [a] => [a &&& 0xF0#8]
  | [] => []

/-- The lower column and page bound (30_encoding.md R85 (a)). -/
def boundLow : Byte := 0x00#8

/-- The upper column bound, width - 1 (30_encoding.md R85 (a)). -/
def columnHigh : Byte := BitVec.ofNat 8 (Config.panelWidth - 1)

/-- The upper page bound, height - 1 (30_encoding.md R85 (a)). -/
def pageHigh : Byte := BitVec.ofNat 8 (Config.panelHeight - 1)

/-- The Epson display-control line count, height / 4 - 1 (30_encoding.md R85 (b)). -/
def lineCount : Byte := BitVec.ofNat 8 (Config.panelHeight / 4 - 1)

/-- MHz to Hz (30_encoding.md R85 (c)). -/
def clockHz (mhz : Nat) : Nat := mhz * 1000000

/-- The no-op command FLUSH pads with (40_framer.md R120). -/
def noOp : Family → Byte
  | .philips => Config.phNop
  | .epson => Config.epNop

end Sys2Proof.Machine
end

