-- ==== Sys2Proof/Machine/Scripts.lean ====
section
/-! DEFINITION. The scripts of the sequencer as data tables (30_encoding.md R90 to R98). -/

namespace Sys2Proof.Machine

/-- `C(v)` (30_encoding.md R98). -/
def cmd (v : Byte) : Item := .sym ⟨.command, v⟩

/-- `D(v)` (30_encoding.md R98). -/
def dat (v : Byte) : Item := .sym ⟨.data, v⟩

/-- PH_INIT (30_encoding.md R92). -/
def phInit (m : PhilipsMap) : List Item :=
  [cmd m.sleepout, cmd m.bstron, cmd m.invoff,
   cmd m.colmod, dat m.colmod12bit,
   cmd m.madctl, dat m.madctlInit,
   cmd m.setcon, dat m.contrast,
   .wait .phInit,
   cmd m.dispon]

/-- EP_INIT (30_encoding.md R93). -/
def epInit (m : EpsonMap) : List Item :=
  [cmd m.disctl, dat m.disctlP1, dat lineCount, dat m.disctlP3,
   cmd m.comscn, dat m.comscnP1,
   cmd m.oscon,
   cmd m.slpout,
   cmd m.pwrctr, dat m.pwrctrP1,
   cmd m.disnor,
   cmd m.datctl, dat m.datctlP1, dat m.datctlP2, dat m.datctlP3,
   cmd m.volctr, dat m.volP1, dat m.volP2,
   .wait .epInit,
   cmd m.dison]

/-- The power-up script of the session's family (42_session.md R140 step 11). -/
def powerUpScript (p : Params) : List Item :=
  match p.family with
  | .philips => phInit p.philips
  | .epson => epInit p.epson

/-- The column-address-set opcode of the session's family (30_encoding.md R94). -/
def casetOf (p : Params) : Byte :=
  match p.family with
  | .philips => p.philips.caset
  | .epson => p.epson.caset

/-- The page-address-set opcode of the session's family (30_encoding.md R94). -/
def pasetOf (p : Params) : Byte :=
  match p.family with
  | .philips => p.philips.paset
  | .epson => p.epson.paset

/-- The memory-write opcode of the session's family (30_encoding.md R94). -/
def ramwrOf (p : Params) : Byte :=
  match p.family with
  | .philips => p.philips.ramwr
  | .epson => p.epson.ramwr

/-- DISPLAY_SCRIPT (30_encoding.md R94). -/
def displayScript (p : Params) (raw : List Byte) : List Item :=
  [cmd (casetOf p), dat boundLow, dat columnHigh,
   cmd (pasetOf p), dat boundLow, dat pageHigh,
   cmd (ramwrOf p)] ++ (pack raw).map dat

/-- PH_OFF and EP_OFF (30_encoding.md R95). -/
def turnOffScript (p : Params) : List Item :=
  match p.family with
  | .philips => [cmd p.philips.dispoff, cmd p.philips.sleepin]
  | .epson => [cmd Config.epDisoff, cmd Config.epSlpin]

/-- PH_ON (30_encoding.md R96), and EP_ON_SCRIPT in the form 43_display_power_rotate.md R170 asks for. -/
def turnOnScript (p : Params) : List Item :=
  match p.family with
  | .philips => [cmd p.philips.sleepout, cmd p.philips.bstron, .wait .phWake, cmd p.philips.dispon]
  | .epson => cmd p.epOn.first :: (p.epOn.rest.map Item.sym ++ [.wait .epWake, cmd p.epson.dison])

/-- PH_ROT(b) (30_encoding.md R97). -/
def rotationScript (m : PhilipsMap) (b : Byte) : List Item := [cmd m.madctl, dat b]

end Sys2Proof.Machine
end

