-- ==== Sys2Proof/Machine/Ops.lean ====
section
/-! DEFINITION. The shared operations: how an operation goes on or ends, the calls to the transport, the framer's
SUBMIT and FLUSH, running a script, and the lifecycle guard. -/

namespace Sys2Proof.Machine

/-- How far an operation has come. -/
inductive Run where
  /-- The operation goes on. -/
  | going (s : State)
  /-- The operation has ended with a condition (60_exceptions.md R196). -/
  | raised (c : Status) (s : State)
  /-- The operation waits for a transport call that never returns (93 U10). -/
  | stuck (s : State)
  deriving DecidableEq, Repr

/-- The next statement of an operation's pseudocode: it runs only if the operation goes on (00_scope.md R12, R196). -/
def Run.andThen (r : Run) (f : State → Run) : Run :=
  match r with
  | .going s => f s
  | .raised c s => .raised c s
  | .stuck s => .stuck s

/-- What happens once a call has returned, whether it succeeded or failed. -/
def Run.onReturn (r : Run) (f : State → State) : Run :=
  match r with
  | .going s => .going (f s)
  | .raised c s => .raised c (f s)
  | .stuck s => .stuck s

/-- `emit(e)` (00_scope.md R12). -/
def State.emit (s : State) (e : Event) : State := { s with trace := s.trace ++ [e] }

/-- An operation returns the status `c` to the caller (60_exceptions.md R190, R196). -/
def State.report (s : State) (c : Status) : State := { s with statuses := s.statuses ++ [c] }

/-- The framer at a frame boundary: `k <- 0`, `prev <- 0x00` (40_framer.md R110 steps 6c, 6d). -/
def State.toBoundary (s : State) : State := { s with bitOffset := 0, previousSymbol := 0x00#8 }

/-- What a transport failure does to the state (60_exceptions.md R197 (a), (b)): the sticky mark is set and the framer
is at a frame boundary (log 11). -/
def State.failed (s : State) : State := { s.toBoundary with fault := true }

/-- The state in which a transport call never returns (93 U10). -/
def State.hang (s : State) : State := { s with hung := true }

/-- The transport's answer to the next call: the next listed one, or a free success or failure (60_exceptions.md R192;
log 4). -/
def State.nextAnswer (s : State) : Answer :=
  match s.answers with
  | a :: _ => a
  | [] => if Config.freeAnswer s.drawn then .success else .failure

/-- The state with that answer used. -/
def State.useAnswer (s : State) : State :=
  match s.answers with
  | _ :: rest => { s with answers := rest }
  | [] => { s with drawn := s.drawn + 1 }

/-- One call to the transport: the attempt is recorded, then the answer decides (60_exceptions.md R192, R197). -/
def transport (e : Event) (s : State) : Run :=
  match s.nextAnswer with
  | .success => .going (s.emit e).useAnswer
  | .failure => .raised .transportFailure (s.emit e).useAnswer.failed
  | .noReturn => .stuck (s.emit e).useAnswer

/-- How an operation ends: it returns Ok, or the condition it raised; one that waits for ever returns nothing
(60_exceptions.md R190, R196). The block is then ready for the next operation: there is nothing else to save and no
return from an exception (R196, R198). -/
def Run.finish (r : Run) : State :=
  match r with
  | .going s => s.report .ok
  | .raised c s => s.report c
  | .stuck s => s.hang

/-- SUBMIT (40_framer.md R110). -/
def submitSymbol (y : Symbol) (s : State) : Run :=
  let stored : State :=
    { s with
      frameBuffer := s.frameBuffer.set s.bitOffset.val (transportByte s.bitOffset.val s.previousSymbol y)
      previousSymbol := y.data }
  if s.bitOffset = 7 then
    let full : State := { stored with frameBuffer := stored.frameBuffer.set 8 stored.previousSymbol }
    (transport (.busTransfer full.frameBuffer) full).andThen fun t => .going t.toBoundary
  else .going { stored with bitOffset := s.bitOffset + 1 }

/-- The loop of FLUSH, with fuel (40_framer.md R120). -/
def flushLoop : Nat → State → Run
  | 0, s => .going s
  | fuel + 1, s =>
    if 0 < s.bitOffset.val then
      (submitSymbol ⟨.command, noOp s.params.family⟩ s).andThen (flushLoop fuel)
    else .going s

/-- FLUSH (40_framer.md R120); seven turns are enough for every `k` (R120). -/
def flush (s : State) : Run := flushLoop 7 s

/-- One item of a script (42_session.md R144). -/
def runItem (i : Item) (s : State) : Run :=
  match i with
  | .sym y => submitSymbol y s
  | .wait t => .going (s.emit (.delay t))

/-- `run(script)`, left to right (42_session.md R144). -/
def runScript : List Item → State → Run
  | [], s => .going s
  | i :: rest, s => (runItem i s).andThen (runScript rest)

/-- `run(script); FLUSH()` (30_encoding.md R99). -/
def runThenFlush (script : List Item) (s : State) : Run := (runScript script s).andThen flush

/-- `guard()` and then the body (43_display_power_rotate.md, opening; 60_exceptions.md R194, R203). -/
def guarded (s : State) (body : State → Run) : Run :=
  match s.lifecycle with
  | .inert => .raised .notInitialized s
  | .closed => .raised .alreadyClosed s
  | .operational => body s

end Sys2Proof.Machine
end

