-- ==== Sys2Proof/Machine/Framer.lean ====
section
/-! DEFINITION. The framer's own operations, SUBMIT and FLUSH (40_framer.md); neither looks at the lifecycle
(60_exceptions.md R203). -/

namespace Sys2Proof.Machine

/-- SUBMIT f, d (40_framer.md R110). -/
def execSubmit (f : Flag) (d : Byte) (s : State) : Host.Outcome State Fault Refusal :=
  .next (submitSymbol ⟨f, d⟩ s).finish

/-- FLUSH (40_framer.md R120). -/
def execFlush (s : State) : Host.Outcome State Fault Refusal :=
  .next (flush s).finish

end Sys2Proof.Machine
end

