-- ==== Sys2Proof/Machine/Panel.lean ====
section
/-! DEFINITION. DISPLAY, TURN_OFF and TURN_ON (43_display_power_rotate.md, sections 1 and 2). -/

namespace Sys2Proof.Machine

/-- DISPLAY raster (43_display_power_rotate.md R160). A raster of another length than 52272 is outside the operation's
domain and refused (R161); the lifecycle guard comes first (log 12). -/
def execDisplay (raw : List Byte) (s : State) : Host.Outcome State Fault Refusal :=
  if s.lifecycle = .operational ∧ raw.length ≠ Config.rasterBytes then .refused .rasterLength
  else .next (guarded s (runThenFlush (displayScript s.params raw))).finish

/-- TURN_OFF (43_display_power_rotate.md R166). -/
def execTurnOff (s : State) : Host.Outcome State Fault Refusal :=
  .next (guarded s (runThenFlush (turnOffScript s.params))).finish

/-- TURN_ON (43_display_power_rotate.md R168). -/
def execTurnOn (s : State) : Host.Outcome State Fault Refusal :=
  .next (guarded s (runThenFlush (turnOnScript s.params))).finish

end Sys2Proof.Machine
end

