-- ==== Sys2Proof/Machine/Rotation.lean ====
section
/-! DEFINITION. The four rotations (43_display_power_rotate.md, section 3). -/

namespace Sys2Proof.Machine

/-- ROTATE(b) (43_display_power_rotate.md, section 3): the family is tested before the guard (R176). -/
def rotate (b : Byte) (s : State) : Run :=
  match s.params.family with
  | .epson => .raised .unsupported s
  | .philips => guarded s (runThenFlush (rotationScript s.params.philips b))

/-- ROTATE_NONE (43_display_power_rotate.md R172). -/
def execRotateNone (s : State) : Host.Outcome State Fault Refusal :=
  .next (rotate Config.phRotNone s).finish

/-- ROTATE_180 (43_display_power_rotate.md R173). -/
def execRotate180 (s : State) : Host.Outcome State Fault Refusal :=
  .next (rotate Config.phRot180 s).finish

/-- ROTATE_90CW (43_display_power_rotate.md R174). -/
def execRotate90cw (s : State) : Host.Outcome State Fault Refusal :=
  .next (rotate Config.phRot90cw s).finish

/-- ROTATE_90CCW (43_display_power_rotate.md R175). -/
def execRotate90ccw (s : State) : Host.Outcome State Fault Refusal :=
  .next (rotate Config.phRot90ccw s).finish

end Sys2Proof.Machine
end

