-- ==== Sys2Proof/Machine/Session.lean ====
section
/-! DEFINITION. The session operations INITIALIZE and CLOSE (42_session.md). -/

namespace Sys2Proof.Machine

/-- Steps 1 to 5 of INITIALIZE: the bus is opened and configured (42_session.md R140, R142). -/
def configureBus (s : State) : Run :=
  (transport (.busOpen s.params.spiBus s.params.chipSelect) s).andThen fun s =>
  (transport (.busSetMode 0) { s with busOpen := true }).andThen fun s =>
  (transport (.busSetBitOrder .msbFirst) s).andThen fun s =>
  transport (.busSetClock (clockHz s.params.clockMhz)) s

/-- Steps 6 to 10 of INITIALIZE: the pulse on the reset line (42_session.md R143). -/
def resetPulse (s : State) : State :=
  let s := s.emit (.pinConfigOutput s.params.resetLine)
  let s := { s.emit (.pinSet s.params.resetLine .low) with pinState := .outLow }
  let s := s.emit (.delay .resetLow)
  let s := { s.emit (.pinSet s.params.resetLine .high) with pinState := .outHigh }
  s.emit (.delay .resetHigh)

/-- Steps 1 to 13 of INITIALIZE (42_session.md R140). -/
def powerUp (s : State) : Run :=
  (configureBus s).andThen fun s =>
  (runThenFlush (powerUpScript s.params) (resetPulse s)).andThen fun s =>
  .going { s with lifecycle := .operational }

/-- Steps 1 to 3 of CLOSE; a failed bus close still leaves the session Closed (42_session.md R148, R150). -/
def release (s : State) : Run :=
  (transport .busClose { s.emit .pinsReleased with pinState := .unconfigured }).onReturn fun s =>
  { s with busOpen := false, lifecycle := .closed }

/-- INITIALIZE (42_session.md R140, R141). -/
def execInitializeSession (s : State) : Host.Outcome State Fault Refusal :=
  .next (Run.finish (if s.lifecycle = .operational then .raised .alreadyInitialized s else powerUp s))

/-- CLOSE (42_session.md R148, R149). -/
def execClose (s : State) : Host.Outcome State Fault Refusal :=
  .next (guarded s release).finish

end Sys2Proof.Machine
end

