-- ==== Sys2Proof/Machine/Symbols.lean ====
section
/-! DEFINITION. The named symbols (30_encoding.md R101): each submits its own nine bits to the framer, which accepts
every symbol and looks at none (30_encoding.md R88 (c), 40_framer.md R117), in a session of either family (log 20). -/

namespace Sys2Proof.Machine

/-- PH_NOP, `C 00`. -/
def execPhNop (s : State) : Host.Outcome State Fault Refusal :=
  .next (submitSymbol ⟨.command, Config.phNop⟩ s).finish

/-- EP_NOP, `C 25`. -/
def execEpNop (s : State) : Host.Outcome State Fault Refusal :=
  .next (submitSymbol ⟨.command, Config.epNop⟩ s).finish

/-- EP_DISOFF, `C AE`. -/
def execEpDisoff (s : State) : Host.Outcome State Fault Refusal :=
  .next (submitSymbol ⟨.command, Config.epDisoff⟩ s).finish

/-- EP_SLPIN, `C 95`. -/
def execEpSlpin (s : State) : Host.Outcome State Fault Refusal :=
  .next (submitSymbol ⟨.command, Config.epSlpin⟩ s).finish

/-- PH_ROT_NONE, `D 10`. -/
def execPhRotNone (s : State) : Host.Outcome State Fault Refusal :=
  .next (submitSymbol ⟨.data, Config.phRotNone⟩ s).finish

/-- PH_ROT_180, `D C0`. -/
def execPhRot180 (s : State) : Host.Outcome State Fault Refusal :=
  .next (submitSymbol ⟨.data, Config.phRot180⟩ s).finish

/-- PH_ROT_90CW, `D 70`. -/
def execPhRot90cw (s : State) : Host.Outcome State Fault Refusal :=
  .next (submitSymbol ⟨.data, Config.phRot90cw⟩ s).finish

/-- PH_ROT_90CCW, `D B0`. -/
def execPhRot90ccw (s : State) : Host.Outcome State Fault Refusal :=
  .next (submitSymbol ⟨.data, Config.phRot90ccw⟩ s).finish

/-- ADDR_LOW, `D 00`. -/
def execAddrLow (s : State) : Host.Outcome State Fault Refusal :=
  .next (submitSymbol ⟨.data, boundLow⟩ s).finish

/-- ADDR_HIGH, `D 83`: the upper bound of columns and of pages. -/
def execAddrHigh (s : State) : Host.Outcome State Fault Refusal :=
  .next (submitSymbol ⟨.data, columnHigh⟩ s).finish

/-- EP_DISCTL_LINES, `D 20`. -/
def execEpDisctlLines (s : State) : Host.Outcome State Fault Refusal :=
  .next (submitSymbol ⟨.data, lineCount⟩ s).finish

end Sys2Proof.Machine
end

