-- ==== Sys2Proof/Machine/Dispatch.lean ====
section
/-! DEFINITION. The meaning of each instruction. -/

namespace Sys2Proof.Machine

def exec (i : Instr) (s : State) : Host.Outcome State Fault Refusal :=
  match i with
  | .submit f d => Sys2Proof.Machine.execSubmit f d s
  | .flush => Sys2Proof.Machine.execFlush s
  | .initializeSession => Sys2Proof.Machine.execInitializeSession s
  | .display raster => Sys2Proof.Machine.execDisplay raster s
  | .turnOff => Sys2Proof.Machine.execTurnOff s
  | .turnOn => Sys2Proof.Machine.execTurnOn s
  | .rotateNone => Sys2Proof.Machine.execRotateNone s
  | .rotate180 => Sys2Proof.Machine.execRotate180 s
  | .rotate90cw => Sys2Proof.Machine.execRotate90cw s
  | .rotate90ccw => Sys2Proof.Machine.execRotate90ccw s
  | .close => Sys2Proof.Machine.execClose s
  | .phNop => Sys2Proof.Machine.execPhNop s
  | .epNop => Sys2Proof.Machine.execEpNop s
  | .epDisoff => Sys2Proof.Machine.execEpDisoff s
  | .epSlpin => Sys2Proof.Machine.execEpSlpin s
  | .phRotNone => Sys2Proof.Machine.execPhRotNone s
  | .phRot180 => Sys2Proof.Machine.execPhRot180 s
  | .phRot90cw => Sys2Proof.Machine.execPhRot90cw s
  | .phRot90ccw => Sys2Proof.Machine.execPhRot90ccw s
  | .addrLow => Sys2Proof.Machine.execAddrLow s
  | .addrHigh => Sys2Proof.Machine.execAddrHigh s
  | .epDisctlLines => Sys2Proof.Machine.execEpDisctlLines s

end Sys2Proof.Machine
end

