-- ==== Sys2Proof/WellFormed.lean ====
section
/-! DEFINITION. Which instructions and parameters are well formed. -/

namespace Sys2Proof

/-- The symbols that have a row of their own in spec/opcode_table.json (30_encoding.md R101). -/
def namedSymbols : List Symbol :=
  [⟨.command, 0x00#8⟩, ⟨.command, 0x25#8⟩, ⟨.command, 0xAE#8⟩, ⟨.command, 0x95#8⟩,
   ⟨.data, 0x10#8⟩, ⟨.data, 0xC0#8⟩, ⟨.data, 0x70#8⟩, ⟨.data, 0xB0#8⟩,
   ⟨.data, 0x00#8⟩, ⟨.data, 0x83#8⟩, ⟨.data, 0x20#8⟩]

/-- The instruction is spelt as the decoder spells it, and its operand lies in the operation's domain: a SUBMIT of a
symbol that has a name is spelt by the name (log 2; every SUBMIT runs all the same), and DISPLAY's raster has exactly
`rasterBytes` bytes (43_display_power_rotate.md R161). -/
def Instr.wf : Instr → Bool
  | .submit f d => !(namedSymbols.contains ⟨f, d⟩)
  | .display raster => raster.length == Config.rasterBytes
  | .flush | .initializeSession | .turnOff | .turnOn | .rotateNone | .rotate180 | .rotate90cw | .rotate90ccw
  | .close | .phNop | .epNop | .epDisoff | .epSlpin | .phRotNone | .phRot180 | .phRot90cw | .phRot90ccw
  | .addrLow | .addrHigh | .epDisctlLines => true

/-- `clock_mhz` is positive (10_state.md R28); every other parameter value is legal. -/
def Params.wf (p : Params) : Bool := decide (0 < p.clockMhz)

end Sys2Proof
end

