-- ==== Sys2Proof/Decode.lean ====
section
/-! DEFINITION. The request decoder (30_encoding.md R86 to R88), total on every request, and the encoder. -/

namespace Sys2Proof

/-- What the decoder answers: an instruction, or a rejection by name. -/
inductive Decoded where
  | instr (i : Instr)
  /-- `op` selects no operation (30_encoding.md R88 (a)). -/
  | illegalOp (op : BitVec 4)
  deriving DecidableEq, Repr

/-- The wire bit of a flag: 0 command, 1 data (30_encoding.md R80). -/
def Flag.bit : Flag → BitVec 1
  | .command => 0#1
  | .data => 1#1

/-- The flag of a wire bit. -/
def Flag.ofBit (b : BitVec 1) : Flag := if b = 0#1 then .command else .data

/-- The nine bits of a symbol, flag uppermost (30_encoding.md R80). -/
def Symbol.bits (y : Symbol) : BitVec 9 := y.flag.bit ++ y.data

/-- The symbol that nine bits hold (30_encoding.md R80). -/
def Symbol.ofBits (b : BitVec 9) : Symbol := ⟨Flag.ofBit (b.extractLsb' 8 1), b.extractLsb' 0 8⟩

/-- `op`, bits 12:9 of the request word (30_encoding.md R86). -/
def Request.op (r : Request) : BitVec 4 := r.word.extractLsb' 9 4

/-- Bits 8:0 of the request word: SUBMIT's symbol (30_encoding.md R86, R87). -/
def Request.low (r : Request) : BitVec 9 := r.word.extractLsb' 0 9

/-- A nine-bit symbol as an instruction: by its SYM9 row where it has one (30_encoding.md R101), else SUBMIT f, d
(R87). DESIGN CHOICE, log 2: the row that fixes more bits wins; both readings have one effect. -/
def decodeSymbol (b : BitVec 9) : Instr :=
  match b.toNat with
  | 0x000 => .phNop
  | 0x025 => .epNop
  | 0x0AE => .epDisoff
  | 0x095 => .epSlpin
  | 0x110 => .phRotNone
  | 0x1C0 => .phRot180
  | 0x170 => .phRot90cw
  | 0x1B0 => .phRot90ccw
  | 0x100 => .addrLow
  | 0x183 => .addrHigh
  | 0x120 => .epDisctlLines
  | _ => .submit (Symbol.ofBits b).flag (Symbol.ofBits b).data

/-- The decoder: `op` selects the operation (30_encoding.md R87); bits 8:0 matter only for SUBMIT (R86); 0xB to 0xF
select none (R88). -/
def decode (r : Request) : Decoded :=
  match r.op.toNat with
  | 0x0 => .instr (decodeSymbol r.low)
  | 0x1 => .instr .flush
  | 0x2 => .instr .initializeSession
  | 0x3 => .instr (.display r.raster)
  | 0x4 => .instr .turnOff
  | 0x5 => .instr .turnOn
  | 0x6 => .instr .rotateNone
  | 0x7 => .instr .rotate180
  | 0x8 => .instr .rotate90cw
  | 0x9 => .instr .rotate90ccw
  | 0xA => .instr .close
  | _ => .illegalOp r.op

/-- The operation code of an instruction (30_encoding.md R87); a named symbol is carried by SUBMIT's code. -/
def Instr.opCode : Instr → BitVec 4
  | .submit _ _ => 0x0#4
  | .flush => 0x1#4
  | .initializeSession => 0x2#4
  | .display _ => 0x3#4
  | .turnOff => 0x4#4
  | .turnOn => 0x5#4
  | .rotateNone => 0x6#4
  | .rotate180 => 0x7#4
  | .rotate90cw => 0x8#4
  | .rotate90ccw => 0x9#4
  | .close => 0xA#4
  | .phNop | .epNop | .epDisoff | .epSlpin | .phRotNone | .phRot180 | .phRot90cw | .phRot90ccw
  | .addrLow | .addrHigh | .epDisctlLines => 0x0#4

/-- Bits 8:0 of an instruction's word: SUBMIT's symbol, a named symbol's own bits (spec/opcode_table.json), and 0 where
the spec ignores them (DESIGN CHOICE, log 1). -/
def Instr.lowBits : Instr → BitVec 9
  | .submit f d => Symbol.bits ⟨f, d⟩
  | .phNop => 0x000#9
  | .epNop => 0x025#9
  | .epDisoff => 0x0AE#9
  | .epSlpin => 0x095#9
  | .phRotNone => 0x110#9
  | .phRot180 => 0x1C0#9
  | .phRot90cw => 0x170#9
  | .phRot90ccw => 0x1B0#9
  | .addrLow => 0x100#9
  | .addrHigh => 0x183#9
  | .epDisctlLines => 0x120#9
  | .flush | .initializeSession | .display _ | .turnOff | .turnOn | .rotateNone | .rotate180 | .rotate90cw
  | .rotate90ccw | .close => 0#9

/-- The raster that goes beside the word: DISPLAY's operand, and nothing for any other instruction. -/
def Instr.operand : Instr → List Byte
  | .display raster => raster
  | .submit _ _ | .flush | .initializeSession | .turnOff | .turnOn | .rotateNone | .rotate180 | .rotate90cw
  | .rotate90ccw | .close | .phNop | .epNop | .epDisoff | .epSlpin | .phRotNone | .phRot180 | .phRot90cw
  | .phRot90ccw | .addrLow | .addrHigh | .epDisctlLines => []

/-- The encoder: `op ++ low` (30_encoding.md R86), with the raster beside it. -/
def encode (i : Instr) : Request := ⟨i.opCode ++ i.lowBits, i.operand⟩

/-- The operand of zeros that stands for the bits the table does not number: the all-black raster (log 13). -/
def blackRaster : List Byte := List.replicate Config.rasterBytes 0x00#8

/-- The request that carries a table word: its low 13 bits (30_encoding.md R86), with the all-black raster beside it as
DISPLAY's operand of zeros, and no raster beside any other word (log 13). -/
def tableRequest (w : Nat) : Request :=
  if w / 512 % 16 = 3 then ⟨BitVec.ofNat 13 w, blackRaster⟩ else ⟨BitVec.ofNat 13 w, []⟩

/-- The instruction the decoder reads from a table word; a word with a bit above bit 12 is no request (log 13). -/
def decodeTableWord (_nbits w : Nat) : Option Instr :=
  if w < 2 ^ 13 then
    match decode (tableRequest w) with
    | .instr i => some i
    | .illegalOp _ => none
  else none

end Sys2Proof
end

