-- ==== Sys2Proof/Machine/Fetch.lean ====
section
/-! DEFINITION. Taking the next request, and what the block does with one that selects no operation. -/

namespace Sys2Proof.Machine

/-- The state with its oldest waiting request taken. -/
def State.takeRequest (s : State) : State := { s with requests := s.requests.tail }

/-- A request whose `op` selects no operation: status IllegalOp, nothing else (30_encoding.md R88 (a)). -/
def illegalRequest (s : State) : Host.Outcome State Fault Refusal :=
  .next (Run.raised .illegalOp s).finish

/-- The state with the request first in the line, on a block that is ready to take one. -/
def State.withRequest (s : State) (r : Request) : State := { s with requests := r :: s.requests, hung := false }

end Sys2Proof.Machine
end

