-- ==== Sys2Proof/Machine/Step.lean ====
section
/-! DEFINITION. One step: one request, run to its end (10_state.md R26, 20_memory.md R64). -/

namespace Sys2Proof.Machine

/-- What the block does with a decoded request. -/
def runDecoded (d : Decoded) (s : State) : Host.Outcome State Fault Refusal :=
  match d with
  | .instr i => exec i s
  | .illegalOp _ => illegalRequest s

/-- One step. With no request waiting the block waits (70_reset_and_hazards.md R221); a block whose transport call
never returned makes no further step (93 U10). -/
def step (s : State) : Host.Outcome State Fault Refusal :=
  if s.hung then .fault .transportHung
  else
    match s.requests with
    | [] => .next s
    | r :: _ => runDecoded (decode r) s.takeRequest

/-- The request of a table word, first in the line of a block that is ready to take it (log 13). -/
def State.withFetchWord (s : State) (_nbits w : Nat) : State := s.withRequest (tableRequest w)

end Sys2Proof.Machine
end

