-- ==== Sys2Proof/Machine/Wire.lean ====
section
/-! DEFINITION. The wire format as the spec states it without the shift-and-merge algorithm: the 72-bit frame, its
decoding, and how a stream of symbols and delays is cut into events (20_memory.md R54, 30_encoding.md R82, R83,
R99). The machine does not call these; statements about it do. -/

namespace Sys2Proof.Machine

/-- The frame as one number, the first symbol uppermost: `S_0 ++ S_1 ++ ...` (20_memory.md R54). -/
def frameNumber (ys : List Symbol) : Nat := ys.foldl (fun n y => n * 512 + y.bits.toNat) 0

/-- The nine bytes that carry eight symbols: `buf[j] = frame[71-8j : 64-8j]` (20_memory.md R54). -/
def frameOf (ys : List Symbol) : Frame :=
  Vector.ofFn fun j => BitVec.ofNat 8 (frameNumber ys >>> (64 - 8 * j.val))

/-- Symbol `i` of a frame (30_encoding.md R83). -/
def frameSymbol (b : Frame) (i : Fin 8) : Symbol :=
  ⟨Flag.ofBit ((b[i.val] >>> (7 - i.val)).extractLsb' 0 1),
   ((b[i.val] &&& ((1#8 <<< (7 - i.val)) - 1#8)) <<< (i.val + 1)) ||| (b[i.val + 1] >>> (7 - i.val))⟩

/-- The eight symbols of a frame (30_encoding.md R83). -/
def decodeFrame (b : Frame) : List Symbol := List.ofFn (frameSymbol b)

/-- A stream of symbols cut into whole frames from a frame boundary; a rest of fewer than eight is dropped
(20_memory.md R57, 40_framer.md R115). -/
def framesOf : List Symbol → List Frame
  | a :: b :: c :: d :: e :: f :: g :: h :: rest => frameOf [a, b, c, d, e, f, g, h] :: framesOf rest
  | _ => []

/-- What a script puts on the bus when `held` symbols already wait: the events in order, and the symbols that wait at
its end. A delay is an event at once; a symbol that is not the eighth waits (20_memory.md R65, 42_session.md R144). -/
def cutScript (held : List Symbol) : List Item → List Event × List Symbol
  | [] => ([], held)
  | .wait t :: rest => ((Event.delay t) :: (cutScript held rest).1, (cutScript held rest).2)
  | .sym y :: rest =>
    if held.length = 7 then
      (Event.busTransfer (frameOf (held ++ [y])) :: (cutScript [] rest).1, (cutScript [] rest).2)
    else cutScript (held ++ [y]) rest

/-- What FLUSH puts on the bus when `held` symbols wait: nothing, or one frame padded with no-op commands
(20_memory.md R57, 30_encoding.md R99). -/
def flushEvents (f : Family) (held : List Symbol) : List Event :=
  if held = [] then []
  else [.busTransfer (frameOf (held ++ List.replicate (8 - held.length) ⟨.command, noOp f⟩))]

/-- The events of `run(script); FLUSH()` when `held` symbols already wait (30_encoding.md R99). -/
def operationEvents (f : Family) (held : List Symbol) (script : List Item) : List Event :=
  (cutScript held script).1 ++ flushEvents f (cutScript held script).2

/-- What the frame buffer holds at a frame boundary after the events `ev`: the last frame transferred, or, when none
was, what it held before (10_state.md R23: no step zeroes it). -/
def lastFrame (old : Frame) : List Event → Frame
  | [] => old
  | .busTransfer b :: rest => lastFrame b rest
  | .busOpen _ _ :: rest | .busSetMode _ :: rest | .busSetBitOrder _ :: rest | .busSetClock _ :: rest
  | .pinConfigOutput _ :: rest | .pinSet _ _ :: rest | .delay _ :: rest | .pinsReleased :: rest
  | .busClose :: rest => lastFrame old rest

/-- The event is a transfer of a frame. -/
def Event.isTransfer : Event → Bool
  | .busTransfer _ => true
  | .busOpen _ _ | .busSetMode _ | .busSetBitOrder _ | .busSetClock _ | .pinConfigOutput _ | .pinSet _ _ | .delay _
  | .pinsReleased | .busClose => false

/-- The events up to and with transfer number `n`, counted from 0: what is on the trace when that transfer fails
(60_exceptions.md R192, R197: the attempt is recorded and nothing follows it). -/
def throughTransfer : Nat → List Event → List Event
  | _, [] => []
  | n, e :: rest =>
    if e.isTransfer then
      match n with
      | 0 => [e]
      | n + 1 => e :: throughTransfer n rest
    else e :: throughTransfer n rest

end Sys2Proof.Machine
end

