-- ==== Sys2Proof/Safety.lean ====
section
/-! DEFINITION. The terms statements use: safe runs, the frame boundary, the symbols the framer holds, the answers a
statement assumes, and the invariant of the block. -/

namespace Sys2Proof

/-- The operations of the sequencer level (00_scope.md R5): all but the framer's own port. -/
def Instr.isSequencer : Instr → Bool
  | .initializeSession | .display _ | .turnOff | .turnOn | .rotateNone | .rotate180 | .rotate90cw | .rotate90ccw
  | .close => true
  | .submit _ _ | .flush | .phNop | .epNop | .epDisoff | .epSlpin | .phRotNone | .phRot180 | .phRot90cw | .phRot90ccw
  | .addrLow | .addrHigh | .epDisctlLines => false

/-- The four rotations (43_display_power_rotate.md, section 3). -/
def Instr.isRotation : Instr → Bool
  | .rotateNone | .rotate180 | .rotate90cw | .rotate90ccw => true
  | .submit _ _ | .flush | .initializeSession | .display _ | .turnOff | .turnOn | .close | .phNop | .epNop | .epDisoff
  | .epSlpin | .phRotNone | .phRot180 | .phRot90cw | .phRot90ccw | .addrLow | .addrHigh | .epDisctlLines => false

end Sys2Proof

namespace Sys2Proof.Machine

/-- A run is safe so far: no transport call has failed and none has failed to return (60_exceptions.md R213, R214). -/
abbrev State.Safe (s : State) : Prop := s.fault = false ∧ s.hung = false

/-- The framer is at a frame boundary (10_state.md R40). -/
abbrev State.AtBoundary (s : State) : Prop := s.bitOffset = 0 ∧ s.previousSymbol = 0x00#8

/-- The transport answers success to the next `n` calls. -/
abbrev State.Answered (s : State) (n : Nat) : Prop := s.answers.take n = List.replicate n Answer.success

/-- The framer holds the symbols `held` and no others: `k` counts them, `prev` is the last one's byte, and the first
`k` slots are the first bytes of the frame that begins with them (10_state.md R21, R22, R35; 20_memory.md R54). The
symbols that are still to come do not matter to those slots, so no-op bits stand for them. -/
abbrev State.Holds (s : State) (held : List Symbol) : Prop :=
  held.length < 8 ∧ s.bitOffset.val = held.length ∧
  s.previousSymbol = (held.getLast?.map Symbol.data).getD 0x00#8 ∧
  ∀ j : Fin 9, j.val < held.length →
    s.frameBuffer[j.val] = (frameOf (held ++ List.replicate (8 - held.length) ⟨.command, 0x00#8⟩))[j.val]

/-- What SUBMIT of `y` gives at `k` in 0..6, from 40_framer.md R111 and R112. At `k = 0` the part of `prev` is 0. -/
def State.afterMidSubmit (s : State) (y : Symbol) : State :=
  { s with
    frameBuffer := s.frameBuffer.set s.bitOffset.val
      ((s.previousSymbol <<< (8 - s.bitOffset.val)) |||
        ((if y.flag = .data then 1#8 else 0#8) <<< (7 - s.bitOffset.val)) ||| (y.data >>> (s.bitOffset.val + 1)))
    previousSymbol := y.data
    bitOffset := s.bitOffset + 1
    statuses := s.statuses ++ [.ok] }

/-- The frame that SUBMIT of `y` completes at `k = 7` (40_framer.md R113). -/
def State.completedFrame (s : State) (y : Symbol) : Frame :=
  (s.frameBuffer.set 7 ((s.previousSymbol <<< 1) ||| (if y.flag = .data then 1#8 else 0#8))).set 8 y.data

/-- What SUBMIT of `y` gives at `k = 7` when the transfer succeeds, from 40_framer.md R113. -/
def State.afterFullSubmit (s : State) (y : Symbol) : State :=
  { s with
    frameBuffer := s.completedFrame y
    bitOffset := 0
    previousSymbol := 0x00#8
    trace := s.trace ++ [.busTransfer (s.completedFrame y)]
    answers := s.answers.tail
    statuses := s.statuses ++ [.ok] }

/-- The symbols of DISPLAY with its padding (43_display_power_rotate.md R160, R163): the address window, the
memory-write command, one data symbol per packed byte, and the one no-op that FLUSH adds. -/
def displaySymbols (p : Params) (raw : List Byte) : List Symbol :=
  [⟨.command, casetOf p⟩, ⟨.data, 0x00#8⟩, ⟨.data, 0x83#8⟩, ⟨.command, pasetOf p⟩, ⟨.data, 0x00#8⟩, ⟨.data, 0x83#8⟩,
   ⟨.command, ramwrOf p⟩] ++ (pack raw).map (fun b => ⟨.data, b⟩) ++
  [⟨.command, if p.family = .philips then 0x00#8 else 0x25#8⟩]

/-- The invariant of the block. `prev` is cleared at a frame boundary (10_state.md R22); an Operational session that is
not waiting for ever holds the bus and drives the reset line high (10_state.md R31, 42_session.md R145); between
operations the line is never left low, and it is driven only while the bus is held (42_session.md R140, R148); the
clock parameter is positive (10_state.md R28). -/
abbrev State.Inv (s : State) : Prop :=
  (s.bitOffset = 0 → s.previousSymbol = 0x00#8) ∧
  (s.hung = false → s.lifecycle = .operational → s.busOpen = true ∧ s.pinState = .outHigh) ∧
  s.pinState ≠ .outLow ∧
  (s.pinState = .outHigh → s.busOpen = true) ∧
  s.params.wf = true

end Sys2Proof.Machine
end

