-- ==== Sys2Proof/Certificates/Slice0/Obligations.lean ====
section
/-! DEFINITION. The statements for the provers. Each cites the rules of spec/ it rests on. Wherever one names what the
frame buffer holds after a transfer, or `prev` at a frame boundary, it states the spec's own decisions D4 to D6 (log 7);
wherever it names the state after a transport failure, the spec's decision D7 (log 15). -/

open Sys2Proof Sys2Proof.Machine

/-! ### Reset, decoding, stepping -/

/-- 10_state.md R38, 70_reset_and_hazards.md R220, R221: the constructed state, for every choice of parameters, and
the defaults of `State.reset`. The values of `k`, `prev` and `buf` are the spec's own decision D4 (log 7); the empty
`statuses`, `requests` and `answers`, `drawn` and `hung` are the model's (log 3, 4, 6, 14) and are not claimed here. -/
def Obligations.ResetIsTheConstructedState : Prop :=
  (∀ p : Params,
    (State.construct p).params = p ∧ (State.construct p).bitOffset = 0 ∧
    (State.construct p).previousSymbol = 0x00#8 ∧ (∀ j : Fin 9, (State.construct p).frameBuffer[j.val] = 0x00#8) ∧
    (State.construct p).lifecycle = .inert ∧ (State.construct p).busOpen = false ∧
    (State.construct p).pinState = .unconfigured ∧ (State.construct p).fault = false ∧
    (State.construct p).trace = []) ∧
  State.reset = State.construct Config.defaultParams ∧
  Config.defaultParams.family = .philips ∧ Config.defaultParams.chipSelect = 0 ∧ Config.defaultParams.clockMhz = 6

/-- 30_encoding.md R86, R87, R101: the decoder gives back every well-formed instruction, with every operand. The
request word is the spec's decision D1; the named rows are log 2. -/
def Obligations.DecodeGivesBackEncodedInstruction : Prop :=
  ∀ i : Instr, i.wf = true → decode (encode i) = .instr i

/-- 30_encoding.md R86, R87, R88 (c): a word with `op = 0` acts as SUBMIT of its bit 8 and bits 7:0, under whichever
name it decodes to (log 2). The request word is the spec's decision D1. -/
def Obligations.OpZeroWordActsAsSubmit : Prop :=
  ∀ (w : BitVec 13) (raw : List Byte), w.toNat < 512 →
    ∃ i, decode ⟨w, raw⟩ = .instr i ∧
      ∀ s : State, exec i s = exec (.submit (if w.toNat / 256 = 1 then .data else .command) (BitVec.ofNat 8 w.toNat)) s

/-- 30_encoding.md R86, R87, R88 (a): bits 12:9 alone select every other operation, bits 8:0 are ignored, and the
codes 0xB to 0xF select none. The codes are the spec's decisions D1 and D24. -/
def Obligations.OpFieldSelectsTheOperation : Prop :=
  ∀ (w : BitVec 13) (raw : List Byte),
    (w.toNat / 512 = 0x1 → decode ⟨w, raw⟩ = .instr .flush) ∧
    (w.toNat / 512 = 0x2 → decode ⟨w, raw⟩ = .instr .initializeSession) ∧
    (w.toNat / 512 = 0x3 → decode ⟨w, raw⟩ = .instr (.display raw)) ∧
    (w.toNat / 512 = 0x4 → decode ⟨w, raw⟩ = .instr .turnOff) ∧
    (w.toNat / 512 = 0x5 → decode ⟨w, raw⟩ = .instr .turnOn) ∧
    (w.toNat / 512 = 0x6 → decode ⟨w, raw⟩ = .instr .rotateNone) ∧
    (w.toNat / 512 = 0x7 → decode ⟨w, raw⟩ = .instr .rotate180) ∧
    (w.toNat / 512 = 0x8 → decode ⟨w, raw⟩ = .instr .rotate90cw) ∧
    (w.toNat / 512 = 0x9 → decode ⟨w, raw⟩ = .instr .rotate90ccw) ∧
    (w.toNat / 512 = 0xA → decode ⟨w, raw⟩ = .instr .close) ∧
    (0xB ≤ w.toNat / 512 → decode ⟨w, raw⟩ = .illegalOp (BitVec.ofNat 4 (w.toNat / 512)))

/-- Words written out from the patterns of spec/opcode_table.json and the examples of 95_test_vectors.md 2.7. The
codes are the spec's decisions D1 and D24; the named rows are log 2. -/
def Obligations.WrittenOutWordsDecode : Prop :=
  decode ⟨0b0000001011100#13, []⟩ = .instr (.submit .command 0x5C#8) ∧
  decode ⟨0b0000111110000#13, []⟩ = .instr (.submit .data 0xF0#8) ∧
  decode ⟨0b0001000000000#13, []⟩ = .instr .flush ∧
  decode ⟨0b0010000000001#13, []⟩ = .instr .initializeSession ∧
  decode ⟨0b0011000000000#13, [0xAB#8]⟩ = .instr (.display [0xAB#8]) ∧
  decode ⟨0b0100000000000#13, []⟩ = .instr .turnOff ∧
  decode ⟨0b0110001010101#13, []⟩ = .instr .rotateNone ∧
  decode ⟨0b1010111111111#13, []⟩ = .instr .close ∧
  decode ⟨0b0000000100101#13, []⟩ = .instr .epNop ∧
  decode ⟨0b0000110000011#13, []⟩ = .instr .addrHigh ∧
  decode ⟨0b1011000000000#13, []⟩ = .illegalOp 0xB#4

/-- 10_state.md R26, 20_memory.md R64: a step takes the oldest request and runs it to its end. One operation a step
is the spec's decision D18; the list of requests is log 3. -/
def Obligations.StepRunsTheOldestRequest : Prop :=
  ∀ (s : State) (r : Request) (rest : List Request) (i : Instr),
    s.hung = false → s.requests = r :: rest → decode r = .instr i → step s = exec i { s with requests := rest }

/-- 30_encoding.md R88 (a), 60_exceptions.md R196: a request with a reserved code is answered IllegalOp; no state
changes and no event is emitted. The spec's decision D24. -/
def Obligations.ReservedCodesAnswerIllegalOp : Prop :=
  ∀ (s : State) (w : BitVec 13) (raw : List Byte) (rest : List Request),
    s.hung = false → s.requests = ⟨w, raw⟩ :: rest → 0xB ≤ w.toNat / 512 →
      step s = .next { s with requests := rest, statuses := s.statuses ++ [.illegalOp] }

/-- 70_reset_and_hazards.md R221 (with no request the block waits), 60_exceptions.md R214 (after a transport call that
never returns it makes no further step; the fault's name is the model's, log 6). -/
def Obligations.StepWaitsOrIsStuck : Prop :=
  (∀ s : State, s.hung = false → s.requests = [] → step s = .next s) ∧
  (∀ s : State, s.hung = true → step s = .fault .transportHung)

/-! ### The framer -/

/-- 40_framer.md R110, R111, R112: SUBMIT at `k` in 0..6 runs, writes slot `k`, `prev` and `k`, and nothing else. -/
def Obligations.SubmitMidCycleStoresOneByte : Prop :=
  ∀ (s : State) (f : Flag) (d : Byte), s.bitOffset.val < 7 → exec (.submit f d) s = .next (s.afterMidSubmit ⟨f, d⟩)

/-- 40_framer.md R113, R114: SUBMIT at `k = 7` writes slots 7 and 8, hands the nine bytes to the bus as one transfer,
and leaves the framer at a frame boundary. -/
def Obligations.SubmitAtSevenSendsTheFrame : Prop :=
  ∀ (s : State) (f : Flag) (d : Byte),
    s.bitOffset = 7 → s.Answered 1 → exec (.submit f d) s = .next (s.afterFullSubmit ⟨f, d⟩)

/-- 40_framer.md R119, 60_exceptions.md R192, R197: the transfer of a SUBMIT fails. The attempt is recorded, the
frame is lost, the framer is at a frame boundary all the same, and the fault is marked. The state after a failure is
the spec's decision D7 (log 15). -/
def Obligations.SubmitWhoseTransferFails : Prop :=
  ∀ (s : State) (f : Flag) (d : Byte) (rest : List Answer),
    s.bitOffset = 7 → s.answers = .failure :: rest →
      exec (.submit f d) s = .next
        { s with
          frameBuffer := s.completedFrame ⟨f, d⟩
          bitOffset := 0
          previousSymbol := 0x00#8
          fault := true
          trace := s.trace ++ [.busTransfer (s.completedFrame ⟨f, d⟩)]
          answers := rest
          statuses := s.statuses ++ [.transportFailure] }

/-- 60_exceptions.md R214: the transfer of a SUBMIT never returns. The call was made, no status is returned, and no
later step is made (log 6). -/
def Obligations.SubmitWhoseTransferNeverReturns : Prop :=
  ∀ (s : State) (f : Flag) (d : Byte) (rest : List Answer),
    s.bitOffset = 7 → s.answers = .noReturn :: rest →
      ∃ t, exec (.submit f d) s = .next t ∧ t.hung = true ∧ t.statuses = s.statuses ∧
        t.trace = s.trace ++ [.busTransfer (s.completedFrame ⟨f, d⟩)] ∧ step t = .fault .transportHung

/-- 60_exceptions.md R192: where no answer is listed the environment answers success or failure, freely; the
statement holds whatever the free value is (log 4). The state after a failure is the spec's decision D7. -/
def Obligations.UnlistedAnswerIsFree : Prop :=
  ∀ (s : State) (f : Flag) (d : Byte), s.bitOffset = 7 → s.answers = [] →
    ∃ t, exec (.submit f d) s = .next t ∧ t.drawn = s.drawn + 1 ∧ t.bitOffset = 0 ∧ t.previousSymbol = 0x00#8 ∧
      t.frameBuffer = s.completedFrame ⟨f, d⟩ ∧
      t.trace = s.trace ++ [.busTransfer (s.completedFrame ⟨f, d⟩)] ∧
      ((Config.freeAnswer s.drawn = true ∧ t.statuses = s.statuses ++ [.ok] ∧ t.fault = s.fault) ∨
        (Config.freeAnswer s.drawn = false ∧ t.statuses = s.statuses ++ [.transportFailure] ∧ t.fault = true))

/-- 30_encoding.md R88 (c), R101; 40_framer.md R117: each named symbol is submitted like any other, in a session of
either family. Naming them as instructions is the model's choice (log 2, log 20). -/
def Obligations.NamedSymbolsAreSubmitted : Prop :=
  ∀ p ∈ [(Instr.phNop, (⟨.command, 0x00#8⟩ : Symbol)), (.epNop, ⟨.command, 0x25#8⟩), (.epDisoff, ⟨.command, 0xAE#8⟩),
      (.epSlpin, ⟨.command, 0x95#8⟩), (.phRotNone, ⟨.data, 0x10#8⟩), (.phRot180, ⟨.data, 0xC0#8⟩),
      (.phRot90cw, ⟨.data, 0x70#8⟩), (.phRot90ccw, ⟨.data, 0xB0#8⟩), (.addrLow, ⟨.data, 0x00#8⟩),
      (.addrHigh, ⟨.data, 0x83#8⟩), (.epDisctlLines, ⟨.data, 0x20#8⟩)],
    ∀ s : State,
      (s.bitOffset.val < 7 → exec p.1 s = .next (s.afterMidSubmit p.2)) ∧
      (s.bitOffset = 7 → s.Answered 1 → exec p.1 s = .next (s.afterFullSubmit p.2))

/-- 40_framer.md R110, 10_state.md R23 (no step zeroes the buffer): SUBMIT leaves every slot but slot `k`, and at
`k = 7` slot 8, as it was, whatever the transport answers. -/
def Obligations.SubmitLeavesOtherSlots : Prop :=
  ∀ (s t : State) (f : Flag) (d : Byte), exec (.submit f d) s = .next t →
    ∀ j : Fin 9, j.val ≠ s.bitOffset.val → (s.bitOffset = 7 → j.val ≠ 8) →
      t.frameBuffer[j.val] = s.frameBuffer[j.val]

/-- 30_encoding.md R84, 40_framer.md R110, R118, 00_scope.md R11: the stored byte, computed on naturals as the source
writes it; the shift by 8 at `k = 7` gives 0. -/
def Obligations.TransportByteOnNaturals : Prop :=
  ∀ (k : Nat) (prev : Byte) (f : Flag) (d : Byte), k < 8 →
    let shifted :=
      (d.toNat / 2 ^ (k + 1)) ||| (if 0 < k then (prev.toNat * 2 ^ (8 - k)) &&& 0xFF else 0)
    (transportByte k prev ⟨f, d⟩).toNat =
      match f with
      | .command => shifted &&& (0xFF - 2 ^ (7 - k))
      | .data => shifted ||| 2 ^ (7 - k)

/-- 30_encoding.md R82, R83: decoding a frame recovers its eight symbols, and every nine bytes are the frame of exactly
the eight symbols they decode to. -/
def Obligations.FrameDecodesToItsSymbols : Prop :=
  (∀ ys : List Symbol, ys.length = 8 → decodeFrame (frameOf ys) = ys) ∧
  (∀ b : Frame, frameOf (decodeFrame b) = b)

/-- 30_encoding.md R83, 20_memory.md R54, 40_framer.md R115: eight SUBMIT requests from a frame boundary make exactly
one bus transfer, and its nine bytes decode to the eight symbols. -/
def Obligations.EightSubmitsSendOneDecodableFrame : Prop :=
  ∀ (ys : List Symbol) (s : State) (rest : List Request),
    ys.length = 8 → s.hung = false → s.bitOffset = 0 → s.Answered 1 →
    s.requests = ys.map (fun y => encode (.submit y.flag y.data)) ++ rest →
      ∃ t b, Host.Core.run Sys2Proof.core 8 s = .next t ∧ t.trace = s.trace ++ [.busTransfer b] ∧
        decodeFrame b = ys ∧ t.frameBuffer = b ∧ t.AtBoundary ∧ t.requests = rest ∧
        t.statuses = s.statuses ++ List.replicate 8 .ok ∧ t.answers = s.answers.tail

/-- 40_framer.md R115, 20_memory.md R57, R64: after n SUBMIT requests from a frame boundary floor(n / 8) transfers have
been made, transfer j carries symbols 8j to 8j+7 in order, and `k = n mod 8`. -/
def Obligations.SubmitsAreCutIntoFrames : Prop :=
  ∀ (ys : List Symbol) (s : State) (rest : List Request),
    s.hung = false → s.AtBoundary → s.Answered (ys.length / 8) →
    s.requests = ys.map (fun y => encode (.submit y.flag y.data)) ++ rest →
      ∃ t, Host.Core.run Sys2Proof.core ys.length s = .next t ∧
        t.trace = s.trace ++ (framesOf ys).map .busTransfer ∧ (framesOf ys).length = ys.length / 8 ∧
        t.bitOffset.val = ys.length % 8 ∧ t.Holds (ys.drop (ys.length / 8 * 8)) ∧ t.requests = rest

/-- 40_framer.md R122: at a frame boundary FLUSH transmits nothing and changes nothing, and a second FLUSH does
nothing. -/
def Obligations.FlushIsIdempotent : Prop :=
  (∀ s : State, s.bitOffset = 0 → exec .flush s = .next { s with statuses := s.statuses ++ [.ok] }) ∧
  (∀ s t : State, exec .flush s = .next t → t.hung = false →
    exec .flush t = .next { t with statuses := t.statuses ++ [.ok] })

/-- 40_framer.md R120, R121, R123: FLUSH pads the held symbols with the family's no-op command to one frame, sends
it, and leaves the framer at a frame boundary; if the transfer fails it ends with TransportFailure. The state after a
failure is the spec's decision D7. -/
def Obligations.FlushPadsAndSendsOneFrame : Prop :=
  ∀ (s : State) (held : List Symbol) (rest : List Answer),
    s.Holds held → held ≠ [] →
    let b := frameOf (held ++
      List.replicate (8 - held.length) ⟨.command, if s.params.family = .philips then 0x00#8 else 0x25#8⟩)
    (s.answers = .success :: rest →
      exec .flush s = .next
        { s with
          frameBuffer := b, bitOffset := 0, previousSymbol := 0x00#8, trace := s.trace ++ [.busTransfer b]
          answers := rest, statuses := s.statuses ++ [.ok] }) ∧
    (s.answers = .failure :: rest →
      exec .flush s = .next
        { s with
          frameBuffer := b, bitOffset := 0, previousSymbol := 0x00#8, fault := true
          trace := s.trace ++ [.busTransfer b], answers := rest, statuses := s.statuses ++ [.transportFailure] })

/-- 40_framer.md R121: after FLUSH returns, with or without TransportFailure, the framer is at a frame boundary. The
premise on `prev` is the invariant of 10_state.md R22. That `prev` is cleared to 0x00 is the spec's decision D6. -/
def Obligations.FlushEndsAtTheBoundary : Prop :=
  ∀ s t : State, (s.bitOffset = 0 → s.previousSymbol = 0x00#8) → exec .flush s = .next t → t.hung = false →
    t.AtBoundary

/-! ### The pixel packer -/

/-- 41_pixel_packer.md R130, R132: byte j is the high nibbles of raw bytes 2j and 2j+1, an odd last byte keeps its high
nibble alone, and the length is ceil(n / 2). -/
def Obligations.PackJoinsHighNibbles : Prop :=
  ∀ raw : List Byte,
    (pack raw).length = (raw.length + 1) / 2 ∧
    (∀ j, 2 * j + 1 < raw.length →
      (pack raw)[j]? = some ((raw.getD (2 * j) 0 &&& 0xF0#8) ||| (raw.getD (2 * j + 1) 0 >>> 4))) ∧
    (raw.length % 2 = 1 → (pack raw)[raw.length / 2]? = some (raw.getD (raw.length - 1) 0 &&& 0xF0#8)) ∧
    (raw.length = 52272 → (pack raw).length = 26136)

/-- 41_pixel_packer.md R131: for an odd length the last packed byte is the high nibble of the last raw byte with a zero
low nibble, after what the bytes before it pack to. -/
def Obligations.PackOddTail : Prop :=
  (∀ (raw : List Byte) (b : Byte), raw.length % 2 = 0 →
    pack (raw ++ [b]) = pack raw ++ [b &&& 0xF0#8] ∧ (b &&& 0xF0#8) &&& 0x0F#8 = 0#8) ∧
  pack [0xAB#8] = [0xA0#8] ∧ pack [] = []

/-! ### The session -/

/-- The nine events of INITIALIZE before its first symbol (42_session.md R140, R142, R143). -/
def setUpEvents (p : Params) : List Event :=
  [.busOpen p.spiBus p.chipSelect, .busSetMode 0, .busSetBitOrder .msbFirst, .busSetClock (p.clockMhz * 1000000),
   .pinConfigOutput p.resetLine, .pinSet p.resetLine .low, .delay .resetLow, .pinSet p.resetLine .high,
   .delay .resetHigh]

/-- 42_session.md R140, R145, R146: INITIALIZE on a Philips session that is Inert or Closed, every call succeeding.
The data bytes of each command, the order of the set-up calls, the clock in Hz and the missing FLUSH before the delay
are the spec's decisions D15, D16, D17 and D27. -/
def Obligations.InitializePhilips : Prop :=
  ∀ s : State, s.lifecycle ≠ .operational → s.params.family = .philips → s.bitOffset = 0 → s.Answered 6 →
    let m := s.params.philips
    let f1 := frameOf [⟨.command, m.sleepout⟩, ⟨.command, m.bstron⟩, ⟨.command, m.invoff⟩, ⟨.command, m.colmod⟩,
      ⟨.data, m.colmod12bit⟩, ⟨.command, m.madctl⟩, ⟨.data, m.madctlInit⟩, ⟨.command, m.setcon⟩]
    let f2 := frameOf ([⟨.data, m.contrast⟩, ⟨.command, m.dispon⟩] ++ List.replicate 6 ⟨.command, 0x00#8⟩)
    exec .initializeSession s = .next
      { s with
        bitOffset := 0, previousSymbol := 0x00#8, frameBuffer := f2, lifecycle := .operational, busOpen := true
        pinState := .outHigh, answers := s.answers.drop 6, statuses := s.statuses ++ [.ok]
        trace := s.trace ++ setUpEvents s.params ++ [.busTransfer f1, .delay .phInit, .busTransfer f2] }

/-- 42_session.md R140, R145, R146: INITIALIZE on an Epson session that is Inert or Closed, every call succeeding.
The data bytes of each command, the order of the set-up calls, the clock in Hz and the missing FLUSH before the delay
are the spec's decisions D15, D16, D17 and D27. -/
def Obligations.InitializeEpson : Prop :=
  ∀ s : State, s.lifecycle ≠ .operational → s.params.family = .epson → s.bitOffset = 0 → s.Answered 7 →
    let m := s.params.epson
    let f1 := frameOf [⟨.command, m.disctl⟩, ⟨.data, m.disctlP1⟩, ⟨.data, 0x20#8⟩, ⟨.data, m.disctlP3⟩,
      ⟨.command, m.comscn⟩, ⟨.data, m.comscnP1⟩, ⟨.command, m.oscon⟩, ⟨.command, m.slpout⟩]
    let f2 := frameOf [⟨.command, m.pwrctr⟩, ⟨.data, m.pwrctrP1⟩, ⟨.command, m.disnor⟩, ⟨.command, m.datctl⟩,
      ⟨.data, m.datctlP1⟩, ⟨.data, m.datctlP2⟩, ⟨.data, m.datctlP3⟩, ⟨.command, m.volctr⟩]
    let f3 := frameOf ([⟨.data, m.volP1⟩, ⟨.data, m.volP2⟩, ⟨.command, m.dison⟩] ++
      List.replicate 5 ⟨.command, 0x25#8⟩)
    exec .initializeSession s = .next
      { s with
        bitOffset := 0, previousSymbol := 0x00#8, frameBuffer := f3, lifecycle := .operational, busOpen := true
        pinState := .outHigh, answers := s.answers.drop 7, statuses := s.statuses ++ [.ok]
        trace := s.trace ++ setUpEvents s.params ++
          [.busTransfer f1, .busTransfer f2, .delay .epInit, .busTransfer f3] }

/-- 42_session.md R141: INITIALIZE on an Operational session is refused with AlreadyInitialized (the spec's decision
D8). -/
def Obligations.InitializeRefusedWhenOperational : Prop :=
  ∀ s : State, s.lifecycle = .operational →
    exec .initializeSession s = .next { s with statuses := s.statuses ++ [.alreadyInitialized] }

/-- 42_session.md R147, 60_exceptions.md R192, R197: call number `n` of the four that configure the bus fails. The
attempts up to it are recorded and nothing after it runs; the handle is held once the open has succeeded. That the
framer is at `k = 0` whatever it held is read from R197 and decision D7 (log 11). -/
def Obligations.InitializeStopsAtTheFailingCall : Prop :=
  ∀ (s : State) (n : Nat) (rest : List Answer),
    s.lifecycle ≠ .operational → n < 4 → s.answers = List.replicate n .success ++ .failure :: rest →
      exec .initializeSession s = .next
        { s with
          bitOffset := 0, previousSymbol := 0x00#8, fault := true, busOpen := s.busOpen || decide (0 < n)
          trace := s.trace ++ (setUpEvents s.params).take (n + 1), answers := rest
          statuses := s.statuses ++ [.transportFailure] }

/-- 42_session.md R148, R150: CLOSE releases the pin, then closes the bus, submits nothing and leaves the framer alone;
if the bus close fails the session is Closed all the same (the spec's decisions D7, D20). -/
def Obligations.CloseReleasesPinAndBus : Prop :=
  ∀ (s : State) (rest : List Answer), s.lifecycle = .operational →
    (s.answers = .success :: rest →
      exec .close s = .next
        { s with
          lifecycle := .closed, busOpen := false, pinState := .unconfigured
          trace := s.trace ++ [.pinsReleased, .busClose], answers := rest, statuses := s.statuses ++ [.ok] }) ∧
    (s.answers = .failure :: rest →
      exec .close s = .next
        { s with
          lifecycle := .closed, busOpen := false, pinState := .unconfigured, fault := true, bitOffset := 0
          previousSymbol := 0x00#8, trace := s.trace ++ [.pinsReleased, .busClose], answers := rest
          statuses := s.statuses ++ [.transportFailure] })

/-- 60_exceptions.md R194, R203, 42_session.md R149: before INITIALIZE and after CLOSE the operational calls are
answered NotInitialized and AlreadyClosed, with no event and no other change. DISPLAY is answered so for every raster
(log 12). Which status, and that CLOSE is guarded, is the spec's decision D10. -/
def Obligations.GuardAnswersOutsideOperational : Prop :=
  ∀ (s : State) (i : Instr),
    ((∃ raw, i = .display raw) ∨ i = .turnOff ∨ i = .turnOn ∨ i = .close ∨
      (s.params.family = .philips ∧ i.isRotation = true)) →
    (s.lifecycle = .inert → exec i s = .next { s with statuses := s.statuses ++ [.notInitialized] }) ∧
    (s.lifecycle = .closed → exec i s = .next { s with statuses := s.statuses ++ [.alreadyClosed] })

/-! ### The panel operations -/

/-- 60_exceptions.md R193, R196; 43_display_power_rotate.md R176: whether a rotation is unsupported depends only on the
family: on an Epson session it always is, in every lifecycle state, with no event and no other change; on a Philips
session it never is. That the family test comes before the lifecycle guard is the spec's decision D9 (log 15). -/
def Obligations.RotationUnsupportedExactlyOnEpson : Prop :=
  ∀ (s : State) (i : Instr), i.isRotation = true →
    (s.params.family = .epson → exec i s = .next { s with statuses := s.statuses ++ [.unsupported] }) ∧
    (s.params.family = .philips → ∀ t, exec i s = .next t → t.statuses ≠ s.statuses ++ [.unsupported])

/-- 43_display_power_rotate.md R172 to R178: each rotation of an Operational Philips session sends one frame with the
memory-access-control command, its orientation byte and six no-ops; nothing of the session changes. -/
def Obligations.RotationsSendTheirFrame : Prop :=
  ∀ p ∈ [(Instr.rotateNone, 0x44#8), (.rotate180, 0x70#8), (.rotate90cw, 0x5C#8), (.rotate90ccw, 0x6C#8)],
    ∀ (s : State) (rest : List Answer),
      s.params.family = .philips → s.lifecycle = .operational → s.bitOffset = 0 → s.answers = .success :: rest →
      let m := s.params.philips.madctl
      let b : Frame := #v[m >>> 1, ((m &&& 1#8) <<< 7) ||| p.2, 0#8, 0#8, 0#8, 0#8, 0#8, 0#8, 0#8]
      exec p.1 s = .next
        { s with
          bitOffset := 0, previousSymbol := 0x00#8, frameBuffer := b, trace := s.trace ++ [.busTransfer b]
          answers := rest, statuses := s.statuses ++ [.ok] }

/-- 43_display_power_rotate.md R166, R167: TURN_OFF sends one frame, on an Epson session the nine bytes the source's
literals give, on a Philips session those of its two commands; the session stays Operational. The Philips command
names are the spec's decision D25. -/
def Obligations.TurnOffSendsItsFrame : Prop :=
  ∀ (s : State) (rest : List Answer), s.lifecycle = .operational → s.bitOffset = 0 → s.answers = .success :: rest →
    let x := s.params.philips.dispoff
    let y := s.params.philips.sleepin
    let b : Frame :=
      match s.params.family with
      | .epson => #v[0x57#8, 0x25#8, 0x44#8, 0xA2#8, 0x51#8, 0x28#8, 0x94#8, 0x4A#8, 0x25#8]
      | .philips => #v[x >>> 1, ((x &&& 1#8) <<< 7) ||| (y >>> 2), (y &&& 3#8) <<< 6, 0#8, 0#8, 0#8, 0#8, 0#8, 0#8]
    exec .turnOff s = .next
      { s with
        bitOffset := 0, previousSymbol := 0x00#8, frameBuffer := b, trace := s.trace ++ [.busTransfer b]
        answers := rest, statuses := s.statuses ++ [.ok] }

/-- 43_display_power_rotate.md R168, R169: on a Philips session TURN_ON takes its delay first and then sends its one
frame, with all three commands and five no-ops. The command names and the missing FLUSH before the delay are the
spec's decisions D25 and D27. -/
def Obligations.TurnOnPhilipsDelaysThenSends : Prop :=
  ∀ (s : State) (rest : List Answer), s.params.family = .philips → s.lifecycle = .operational → s.bitOffset = 0 →
    s.answers = .success :: rest →
    let m := s.params.philips
    let b := frameOf ([⟨.command, m.sleepout⟩, ⟨.command, m.bstron⟩, ⟨.command, m.dispon⟩] ++
      List.replicate 5 ⟨.command, 0x00#8⟩)
    exec .turnOn s = .next
      { s with
        bitOffset := 0, previousSymbol := 0x00#8, frameBuffer := b
        trace := s.trace ++ [.delay .phWake, .busTransfer b], answers := rest, statuses := s.statuses ++ [.ok] }

/-- 43_display_power_rotate.md R168, R170: on an Epson session TURN_ON runs EP_ON_SCRIPT, whatever its open part is,
and FLUSH with the no-op 0x25. The shape of the script is the spec's decision D19 (log 10); where the delay stands among
the frames rests on decision D27, no FLUSH before a delay (log 15). -/
def Obligations.TurnOnEpsonRunsItsScript : Prop :=
  ∀ s : State, s.params.family = .epson → s.lifecycle = .operational → s.AtBoundary →
    let script := Item.sym ⟨.command, s.params.epOn.first⟩ :: (s.params.epOn.rest.map .sym ++
      [.wait .epWake, .sym ⟨.command, s.params.epson.dison⟩])
    let ev := operationEvents .epson [] script
    s.Answered (ev.countP Event.isTransfer) →
      exec .turnOn s = .next
        { s with
          frameBuffer := lastFrame s.frameBuffer ev, trace := s.trace ++ ev
          answers := s.answers.drop (ev.countP Event.isTransfer), statuses := s.statuses ++ [.ok] }

/-- 43_display_power_rotate.md R160, R162, R163, R164: DISPLAY of a normalised raster sends 3268 frames: the address
window, the memory-write command, the 26136 packed bytes as data symbols, and one no-op. The operand is the spec's
decision D14. -/
def Obligations.DisplaySendsTheRaster : Prop :=
  ∀ (s : State) (raw : List Byte), s.lifecycle = .operational → s.AtBoundary → raw.length = 52272 → s.Answered 3268 →
    let ev := (framesOf (displaySymbols s.params raw)).map Event.busTransfer
    ev.length = 3268 ∧ (pack raw).length = 26136 ∧
    exec (.display raw) s = .next
      { s with
        frameBuffer := lastFrame s.frameBuffer ev, trace := s.trace ++ ev, answers := s.answers.drop 3268
        statuses := s.statuses ++ [.ok] }

/-- 43_display_power_rotate.md R163: the bytes of DISPLAY's first frame. -/
def Obligations.DisplayFirstFrame : Prop :=
  ∀ (p : Params) (x y : Byte) (raw : List Byte),
    let a := casetOf p
    let c := pasetOf p
    let r := ramwrOf p
    (framesOf (displaySymbols p (x :: y :: raw))).head? =
      some #v[a >>> 1, ((a &&& 1#8) <<< 7) ||| 0x40#8, 0x30#8, 0x60#8 ||| (c >>> 4), ((c &&& 0x0F#8) <<< 4) ||| 0x08#8,
        0x06#8, 0x0C#8 ||| (r >>> 7), (r <<< 1) ||| 0x01#8, (x &&& 0xF0#8) ||| (y >>> 4)]

/-- 43_display_power_rotate.md R163, R164, 41_pixel_packer.md R135: an all-black raster, on a session of either
family: transfers 2 to 3267 carry eight `D 00`, the last carries seven and the family's no-op. -/
def Obligations.DisplayAllBlack : Prop :=
  ∀ p : Params, ∃ first,
    framesOf (displaySymbols p (List.replicate 52272 0x00#8)) =
      first :: (List.replicate 3266 #v[0x80#8, 0x40#8, 0x20#8, 0x10#8, 0x08#8, 0x04#8, 0x02#8, 0x01#8, 0x00#8] ++
        [#v[0x80#8, 0x40#8, 0x20#8, 0x10#8, 0x08#8, 0x04#8, 0x02#8, 0x00#8,
          if p.family = .philips then 0x00#8 else 0x25#8]])

/-- 43_display_power_rotate.md R165, 60_exceptions.md R197: transfer number `n + 1` of DISPLAY fails. The frames up
to it were handed to the bus, the rest of the raster is not sent, no FLUSH follows, and the session stays
Operational. The state after the failure is the spec's decision D7. -/
def Obligations.DisplayStopsAtTheFailingFrame : Prop :=
  ∀ (s : State) (raw : List Byte) (n : Nat) (rest : List Answer),
    s.lifecycle = .operational → s.AtBoundary → raw.length = 52272 → n < 3268 →
    s.answers = List.replicate n .success ++ .failure :: rest →
      let ev := ((framesOf (displaySymbols s.params raw)).take (n + 1)).map Event.busTransfer
      exec (.display raw) s = .next
        { s with
          frameBuffer := lastFrame s.frameBuffer ev, fault := true, trace := s.trace ++ ev, answers := rest
          statuses := s.statuses ++ [.transportFailure] }

/-- 43_display_power_rotate.md R161, 60_exceptions.md R213: on an Operational session a raster of another length is
refused. The spec's decision D14; that the guard comes first is log 12. -/
def Obligations.DisplayRefusesAnotherLength : Prop :=
  ∀ (s : State) (raw : List Byte), s.lifecycle = .operational → raw.length ≠ 52272 →
    exec (.display raw) s = .refused .rasterLength

/-- 20_memory.md R54, R57, R64, R65, R66; 30_encoding.md R99; 42_session.md R144; 70_reset_and_hazards.md R231, R233:
running any script and then FLUSH, with the shift-and-merge algorithm, puts on the bus exactly what cutting the
stream of symbols into 72-bit frames puts there, delays in their places, whatever the framer already held. That a
delay does not flush is the spec's decision D27. -/
def Obligations.ScriptsRefineToWireFrames : Prop :=
  ∀ (script : List Item) (s : State) (held : List Symbol), s.Holds held →
    let ev := operationEvents s.params.family held script
    s.Answered (ev.countP Event.isTransfer) →
      runThenFlush script s = .going
        { s with
          frameBuffer := lastFrame s.frameBuffer ev, bitOffset := 0, previousSymbol := 0x00#8, trace := s.trace ++ ev
          answers := s.answers.drop (ev.countP Event.isTransfer) }

/-- 60_exceptions.md R192, R197; 40_framer.md R119: the failing-answer version of the statement above. Transfer number
`n` (from 0) of any script and its FLUSH fails: the events up to it and the attempt itself are on the trace, nothing after
it runs, the buffer holds the lost frame, and the framer is at a boundary with the fault marked. The state after a
failure is the spec's decision D7 (log 15); that a delay does not flush is decision D27. -/
def Obligations.ScriptsStopAtTheFailingFrame : Prop :=
  ∀ (script : List Item) (s : State) (held : List Symbol) (n : Nat) (rest : List Answer), s.Holds held →
    let ev := operationEvents s.params.family held script
    n < ev.countP Event.isTransfer → s.answers = List.replicate n .success ++ .failure :: rest →
      runThenFlush script s = .raised .transportFailure
        { s with
          frameBuffer := lastFrame s.frameBuffer (throughTransfer n ev), bitOffset := 0, previousSymbol := 0x00#8
          fault := true, trace := s.trace ++ throughTransfer n ev, answers := rest }

/-- 42_session.md R147, 60_exceptions.md R192, R197: the bus is set up and transfer number `n` (from 0) of INITIALIZE
fails, on a session of either family. The set-up events and the script's events up to the failing frame stand, the bus
is held, the pin is high, and the lifecycle is what it was (the spec's decision D7, log 15). -/
def Obligations.InitializeStopsAtTheFailingFrame : Prop :=
  ∀ (s : State) (held : List Symbol) (n : Nat) (rest : List Answer), s.lifecycle ≠ .operational → s.Holds held →
    let ev := operationEvents s.params.family held (powerUpScript s.params)
    n < ev.countP Event.isTransfer → s.answers = List.replicate (4 + n) .success ++ .failure :: rest →
      exec .initializeSession s = .next
        { s with
          frameBuffer := lastFrame s.frameBuffer (throughTransfer n ev), bitOffset := 0, previousSymbol := 0x00#8
          fault := true, busOpen := true, pinState := .outHigh
          trace := s.trace ++ setUpEvents s.params ++ throughTransfer n ev, answers := rest
          statuses := s.statuses ++ [.transportFailure] }

/-- 43_display_power_rotate.md R166, R168, R172 to R175; 60_exceptions.md R192, R197: transfer number `n` (from 0) of
TURN_OFF, TURN_ON or a rotation of an Operational session fails. The events up to the failing frame stand, nothing after
it runs, and the session stays Operational (the spec's decision D7, log 15). -/
def Obligations.PanelOperationsStopAtTheFailingFrame : Prop :=
  ∀ (s : State) (held : List Symbol) (n : Nat) (rest : List Answer), s.lifecycle = .operational → s.Holds held →
    ∀ p ∈ [(Instr.turnOff, turnOffScript s.params), (.turnOn, turnOnScript s.params),
        (.rotateNone, rotationScript s.params.philips 0x10#8), (.rotate180, rotationScript s.params.philips 0xC0#8),
        (.rotate90cw, rotationScript s.params.philips 0x70#8), (.rotate90ccw, rotationScript s.params.philips 0xB0#8)],
      (p.1.isRotation = true → s.params.family = .philips) →
      let ev := operationEvents s.params.family held p.2
      n < ev.countP Event.isTransfer → s.answers = List.replicate n .success ++ .failure :: rest →
        exec p.1 s = .next
          { s with
            frameBuffer := lastFrame s.frameBuffer (throughTransfer n ev), bitOffset := 0, previousSymbol := 0x00#8
            fault := true, trace := s.trace ++ throughTransfer n ev, answers := rest
            statuses := s.statuses ++ [.transportFailure] }

/-! ### The whole machine -/

/-- The invariant holds after reset. -/
def Obligations.InvariantHoldsAtReset : Prop := State.reset.Inv

/-- 10_state.md R22, R28, R31; 42_session.md R145: every step keeps the invariant, whatever the request and whatever
the transport answers. -/
def Obligations.StepKeepsTheInvariant : Prop :=
  ∀ s t : State, s.Inv → step s = .next t → t.Inv

/-- 60_exceptions.md R204: the transitions of the lifecycle are Inert or Closed to Operational by an INITIALIZE that
returns Ok, and Operational to Closed by a CLOSE that returns, and no others; none leads back to Inert. The Closed
state after a failed CLOSE is the spec's decision D7. -/
def Obligations.LifecycleTransitionsAreComplete : Prop :=
  ∀ (i : Instr) (s t : State), exec i s = .next t →
    (i = .initializeSession ∧ s.lifecycle ≠ .operational ∧ t.statuses = s.statuses ++ [.ok] →
      t.lifecycle = .operational) ∧
    (i = .close ∧ s.lifecycle = .operational ∧
      (t.statuses = s.statuses ++ [.ok] ∨ t.statuses = s.statuses ++ [.transportFailure]) → t.lifecycle = .closed) ∧
    (¬ (i = .initializeSession ∧ s.lifecycle ≠ .operational ∧ t.statuses = s.statuses ++ [.ok]) →
      ¬ (i = .close ∧ s.lifecycle = .operational ∧
        (t.statuses = s.statuses ++ [.ok] ∨ t.statuses = s.statuses ++ [.transportFailure])) →
      t.lifecycle = s.lifecycle) ∧
    (t.lifecycle = .inert → s.lifecycle = .inert)

/-- 60_exceptions.md R190: an operation returns exactly one status, or it waits for a transport call for ever and
returns none (R214). -/
def Obligations.OneStatusPerOperation : Prop :=
  ∀ (i : Instr) (s t : State), exec i s = .next t → s.hung = false →
    (t.hung = false ∧ ∃ c, t.statuses = s.statuses ++ [c]) ∨ (t.hung = true ∧ t.statuses = s.statuses)

/-- 60_exceptions.md R190, R200: which operations raise which condition, and when. TransportFailure comes from
INITIALIZE outside Operational, from the other sequencer operations only while Operational (a rotation only on a Philips
session), from FLUSH only with symbols pending, and from a SUBMIT only at `k = 7`. Statuses 5 and 6 and the split between
1 and 2 are the spec's decisions D8, D24, D10 and D9. -/
def Obligations.ConditionsAreRaisedWhereListed : Prop :=
  ∀ (i : Instr) (s t : State) (c : Status), exec i s = .next t → t.statuses = s.statuses ++ [c] →
    (c = .notInitialized → s.lifecycle = .inert ∧ i.isSequencer = true ∧ i ≠ .initializeSession ∧
      (i.isRotation = true → s.params.family = .philips)) ∧
    (c = .alreadyClosed → s.lifecycle = .closed ∧ i.isSequencer = true ∧ i ≠ .initializeSession ∧
      (i.isRotation = true → s.params.family = .philips)) ∧
    (c = .unsupported → i.isRotation = true ∧ s.params.family = .epson) ∧
    (c = .alreadyInitialized → i = .initializeSession ∧ s.lifecycle = .operational) ∧
    (c = .transportFailure →
      (i = .initializeSession → s.lifecycle ≠ .operational) ∧
      (i.isSequencer = true → i ≠ .initializeSession → s.lifecycle = .operational) ∧
      (i.isRotation = true → s.params.family = .philips) ∧
      (i = .flush → s.bitOffset ≠ 0) ∧
      (i.isSequencer = false → i ≠ .flush → s.bitOffset = 7)) ∧
    c ≠ .illegalOp

/-- 60_exceptions.md R196: a condition other than TransportFailure is the first thing the operation does: no event, and
nothing changed but the status returned. -/
def Obligations.RefusalsChangeNothing : Prop :=
  ∀ (i : Instr) (s t : State) (c : Status), exec i s = .next t → t.statuses = s.statuses ++ [c] →
    c ≠ .ok → c ≠ .transportFailure → t = { s with statuses := s.statuses ++ [c] }

/-- 60_exceptions.md R197, 10_state.md R32: what a TransportFailure leaves, and that nothing else sets the mark. That
the framer is at a boundary for every failing call is read from R197 and decision D7 (log 11). -/
def Obligations.TransportFailureLeavesACleanBoundary : Prop :=
  ∀ (i : Instr) (s t : State), exec i s = .next t →
    (t.statuses = s.statuses ++ [.transportFailure] →
      t.fault = true ∧ t.AtBoundary ∧ t.lifecycle = (if i = .close then .closed else s.lifecycle)) ∧
    (t.fault = true → s.fault = true ∨ t.statuses = s.statuses ++ [.transportFailure])

/-- 00_scope.md R8 (the parameters never change), 10_state.md R32 (no operation clears the mark), 20_memory.md R64
(events are never reordered, merged, dropped or repeated: the trace and the statuses only grow at their end), and a
step takes exactly the oldest request. The trace and the sticky mark are the spec's decisions D22 and D7; the lists
of statuses and of requests are log 14 and log 3. -/
def Obligations.StepOnlyAddsToHistory : Prop :=
  ∀ s t : State, step s = .next t →
    t.params = s.params ∧ (s.fault = true → t.fault = true) ∧ s.trace <+: t.trace ∧ s.statuses <+: t.statuses ∧
    t.requests = s.requests.tail

/-- 60_exceptions.md R204, R209; 10_state.md R31: an operation other than INITIALIZE and CLOSE leaves the lifecycle,
the bus handle, the pin, the parameters and the waiting requests alone, and all it does outside is transfer frames and
take delays. -/
def Obligations.OnlySessionOperationsTouchBusAndPin : Prop :=
  ∀ (i : Instr) (s t : State), exec i s = .next t → i ≠ .initializeSession → i ≠ .close →
    t.lifecycle = s.lifecycle ∧ t.busOpen = s.busOpen ∧ t.pinState = s.pinState ∧ t.params = s.params ∧
    t.requests = s.requests ∧
    ∃ ev, t.trace = s.trace ++ ev ∧ ∀ e ∈ ev, e.isTransfer = true ∨ ∃ d, e = .delay d

/-- 10_state.md R40, 60_exceptions.md R206: a sequencer operation that starts at a frame boundary and returns, with
whatever status, ends at one. -/
def Obligations.SequencerOperationsEndAtTheBoundary : Prop :=
  ∀ (i : Instr) (s t : State), i.isSequencer = true → s.AtBoundary → exec i s = .next t → t.hung = false →
    t.AtBoundary

/-- 10_state.md R30, 60_exceptions.md R194, R203: while the bus handle is not held, a sequencer operation makes no call
at all or begins with opening the bus. The premise is the invariant that every step keeps. -/
def Obligations.NoBusAccessBeforeTheBusIsOpened : Prop :=
  ∀ (i : Instr) (s t : State), s.Inv → s.hung = false → i.isSequencer = true → s.busOpen = false →
    exec i s = .next t →
    t.trace = s.trace ∨ ∃ ev, t.trace = s.trace ++ .busOpen s.params.spiBus s.params.chipSelect :: ev
end

