-- ==== Sys2Proof/Laws/State.lean ====
section
/-! SUPPORT. What each named update of the state does to each field. -/

namespace Sys2Proof.Machine

variable (s : State)

@[simp] theorem State.emit_params (e : Event) : (s.emit e).params = s.params := rfl
@[simp] theorem State.emit_bitOffset (e : Event) : (s.emit e).bitOffset = s.bitOffset := rfl
@[simp] theorem State.emit_previousSymbol (e : Event) : (s.emit e).previousSymbol = s.previousSymbol := rfl
@[simp] theorem State.emit_frameBuffer (e : Event) : (s.emit e).frameBuffer = s.frameBuffer := rfl
@[simp] theorem State.emit_lifecycle (e : Event) : (s.emit e).lifecycle = s.lifecycle := rfl
@[simp] theorem State.emit_busOpen (e : Event) : (s.emit e).busOpen = s.busOpen := rfl
@[simp] theorem State.emit_pinState (e : Event) : (s.emit e).pinState = s.pinState := rfl
@[simp] theorem State.emit_fault (e : Event) : (s.emit e).fault = s.fault := rfl
@[simp] theorem State.emit_trace (e : Event) : (s.emit e).trace = s.trace ++ [e] := rfl
@[simp] theorem State.emit_statuses (e : Event) : (s.emit e).statuses = s.statuses := rfl
@[simp] theorem State.emit_requests (e : Event) : (s.emit e).requests = s.requests := rfl
@[simp] theorem State.emit_answers (e : Event) : (s.emit e).answers = s.answers := rfl
@[simp] theorem State.emit_drawn (e : Event) : (s.emit e).drawn = s.drawn := rfl
@[simp] theorem State.emit_hung (e : Event) : (s.emit e).hung = s.hung := rfl

@[simp] theorem State.report_params (c : Status) : (s.report c).params = s.params := rfl
@[simp] theorem State.report_bitOffset (c : Status) : (s.report c).bitOffset = s.bitOffset := rfl
@[simp] theorem State.report_previousSymbol (c : Status) : (s.report c).previousSymbol = s.previousSymbol := rfl
@[simp] theorem State.report_frameBuffer (c : Status) : (s.report c).frameBuffer = s.frameBuffer := rfl
@[simp] theorem State.report_lifecycle (c : Status) : (s.report c).lifecycle = s.lifecycle := rfl
@[simp] theorem State.report_busOpen (c : Status) : (s.report c).busOpen = s.busOpen := rfl
@[simp] theorem State.report_pinState (c : Status) : (s.report c).pinState = s.pinState := rfl
@[simp] theorem State.report_fault (c : Status) : (s.report c).fault = s.fault := rfl
@[simp] theorem State.report_trace (c : Status) : (s.report c).trace = s.trace := rfl
@[simp] theorem State.report_statuses (c : Status) : (s.report c).statuses = s.statuses ++ [c] := rfl
@[simp] theorem State.report_requests (c : Status) : (s.report c).requests = s.requests := rfl
@[simp] theorem State.report_answers (c : Status) : (s.report c).answers = s.answers := rfl
@[simp] theorem State.report_drawn (c : Status) : (s.report c).drawn = s.drawn := rfl
@[simp] theorem State.report_hung (c : Status) : (s.report c).hung = s.hung := rfl

@[simp] theorem State.toBoundary_params : (s.toBoundary).params = s.params := rfl
@[simp] theorem State.toBoundary_bitOffset : (s.toBoundary).bitOffset = 0 := rfl
@[simp] theorem State.toBoundary_previousSymbol : (s.toBoundary).previousSymbol = 0x00#8 := rfl
@[simp] theorem State.toBoundary_frameBuffer : (s.toBoundary).frameBuffer = s.frameBuffer := rfl
@[simp] theorem State.toBoundary_lifecycle : (s.toBoundary).lifecycle = s.lifecycle := rfl
@[simp] theorem State.toBoundary_busOpen : (s.toBoundary).busOpen = s.busOpen := rfl
@[simp] theorem State.toBoundary_pinState : (s.toBoundary).pinState = s.pinState := rfl
@[simp] theorem State.toBoundary_fault : (s.toBoundary).fault = s.fault := rfl
@[simp] theorem State.toBoundary_trace : (s.toBoundary).trace = s.trace := rfl
@[simp] theorem State.toBoundary_statuses : (s.toBoundary).statuses = s.statuses := rfl
@[simp] theorem State.toBoundary_requests : (s.toBoundary).requests = s.requests := rfl
@[simp] theorem State.toBoundary_answers : (s.toBoundary).answers = s.answers := rfl
@[simp] theorem State.toBoundary_drawn : (s.toBoundary).drawn = s.drawn := rfl
@[simp] theorem State.toBoundary_hung : (s.toBoundary).hung = s.hung := rfl

@[simp] theorem State.failed_params : (s.failed).params = s.params := rfl
@[simp] theorem State.failed_bitOffset : (s.failed).bitOffset = 0 := rfl
@[simp] theorem State.failed_previousSymbol : (s.failed).previousSymbol = 0x00#8 := rfl
@[simp] theorem State.failed_frameBuffer : (s.failed).frameBuffer = s.frameBuffer := rfl
@[simp] theorem State.failed_lifecycle : (s.failed).lifecycle = s.lifecycle := rfl
@[simp] theorem State.failed_busOpen : (s.failed).busOpen = s.busOpen := rfl
@[simp] theorem State.failed_pinState : (s.failed).pinState = s.pinState := rfl
@[simp] theorem State.failed_fault : (s.failed).fault = true := rfl
@[simp] theorem State.failed_trace : (s.failed).trace = s.trace := rfl
@[simp] theorem State.failed_statuses : (s.failed).statuses = s.statuses := rfl
@[simp] theorem State.failed_requests : (s.failed).requests = s.requests := rfl
@[simp] theorem State.failed_answers : (s.failed).answers = s.answers := rfl
@[simp] theorem State.failed_drawn : (s.failed).drawn = s.drawn := rfl
@[simp] theorem State.failed_hung : (s.failed).hung = s.hung := rfl

@[simp] theorem State.hang_params : (s.hang).params = s.params := rfl
@[simp] theorem State.hang_bitOffset : (s.hang).bitOffset = s.bitOffset := rfl
@[simp] theorem State.hang_previousSymbol : (s.hang).previousSymbol = s.previousSymbol := rfl
@[simp] theorem State.hang_frameBuffer : (s.hang).frameBuffer = s.frameBuffer := rfl
@[simp] theorem State.hang_lifecycle : (s.hang).lifecycle = s.lifecycle := rfl
@[simp] theorem State.hang_busOpen : (s.hang).busOpen = s.busOpen := rfl
@[simp] theorem State.hang_pinState : (s.hang).pinState = s.pinState := rfl
@[simp] theorem State.hang_fault : (s.hang).fault = s.fault := rfl
@[simp] theorem State.hang_trace : (s.hang).trace = s.trace := rfl
@[simp] theorem State.hang_statuses : (s.hang).statuses = s.statuses := rfl
@[simp] theorem State.hang_requests : (s.hang).requests = s.requests := rfl
@[simp] theorem State.hang_answers : (s.hang).answers = s.answers := rfl
@[simp] theorem State.hang_drawn : (s.hang).drawn = s.drawn := rfl
@[simp] theorem State.hang_hung : (s.hang).hung = true := rfl

@[simp] theorem State.takeRequest_params : (s.takeRequest).params = s.params := rfl
@[simp] theorem State.takeRequest_bitOffset : (s.takeRequest).bitOffset = s.bitOffset := rfl
@[simp] theorem State.takeRequest_previousSymbol : (s.takeRequest).previousSymbol = s.previousSymbol := rfl
@[simp] theorem State.takeRequest_frameBuffer : (s.takeRequest).frameBuffer = s.frameBuffer := rfl
@[simp] theorem State.takeRequest_lifecycle : (s.takeRequest).lifecycle = s.lifecycle := rfl
@[simp] theorem State.takeRequest_busOpen : (s.takeRequest).busOpen = s.busOpen := rfl
@[simp] theorem State.takeRequest_pinState : (s.takeRequest).pinState = s.pinState := rfl
@[simp] theorem State.takeRequest_fault : (s.takeRequest).fault = s.fault := rfl
@[simp] theorem State.takeRequest_trace : (s.takeRequest).trace = s.trace := rfl
@[simp] theorem State.takeRequest_statuses : (s.takeRequest).statuses = s.statuses := rfl
@[simp] theorem State.takeRequest_requests : (s.takeRequest).requests = s.requests.tail := rfl
@[simp] theorem State.takeRequest_answers : (s.takeRequest).answers = s.answers := rfl
@[simp] theorem State.takeRequest_drawn : (s.takeRequest).drawn = s.drawn := rfl
@[simp] theorem State.takeRequest_hung : (s.takeRequest).hung = s.hung := rfl

@[simp] theorem State.withRequest_params (r : Request) : (s.withRequest r).params = s.params := rfl
@[simp] theorem State.withRequest_bitOffset (r : Request) : (s.withRequest r).bitOffset = s.bitOffset := rfl
@[simp] theorem State.withRequest_previousSymbol (r : Request) : (s.withRequest r).previousSymbol = s.previousSymbol := rfl
@[simp] theorem State.withRequest_frameBuffer (r : Request) : (s.withRequest r).frameBuffer = s.frameBuffer := rfl
@[simp] theorem State.withRequest_lifecycle (r : Request) : (s.withRequest r).lifecycle = s.lifecycle := rfl
@[simp] theorem State.withRequest_busOpen (r : Request) : (s.withRequest r).busOpen = s.busOpen := rfl
@[simp] theorem State.withRequest_pinState (r : Request) : (s.withRequest r).pinState = s.pinState := rfl
@[simp] theorem State.withRequest_fault (r : Request) : (s.withRequest r).fault = s.fault := rfl
@[simp] theorem State.withRequest_trace (r : Request) : (s.withRequest r).trace = s.trace := rfl
@[simp] theorem State.withRequest_statuses (r : Request) : (s.withRequest r).statuses = s.statuses := rfl
@[simp] theorem State.withRequest_requests (r : Request) : (s.withRequest r).requests = r :: s.requests := rfl
@[simp] theorem State.withRequest_answers (r : Request) : (s.withRequest r).answers = s.answers := rfl
@[simp] theorem State.withRequest_drawn (r : Request) : (s.withRequest r).drawn = s.drawn := rfl
@[simp] theorem State.withRequest_hung (r : Request) : (s.withRequest r).hung = false := rfl

/-! Using an answer changes the answers and the counter of free answers only. -/

@[simp] theorem State.useAnswer_params : s.useAnswer.params = s.params := by
  unfold State.useAnswer; split <;> rfl

@[simp] theorem State.useAnswer_bitOffset : s.useAnswer.bitOffset = s.bitOffset := by
  unfold State.useAnswer; split <;> rfl

@[simp] theorem State.useAnswer_previousSymbol : s.useAnswer.previousSymbol = s.previousSymbol := by
  unfold State.useAnswer; split <;> rfl

@[simp] theorem State.useAnswer_frameBuffer : s.useAnswer.frameBuffer = s.frameBuffer := by
  unfold State.useAnswer; split <;> rfl

@[simp] theorem State.useAnswer_lifecycle : s.useAnswer.lifecycle = s.lifecycle := by
  unfold State.useAnswer; split <;> rfl

@[simp] theorem State.useAnswer_busOpen : s.useAnswer.busOpen = s.busOpen := by
  unfold State.useAnswer; split <;> rfl

@[simp] theorem State.useAnswer_pinState : s.useAnswer.pinState = s.pinState := by
  unfold State.useAnswer; split <;> rfl

@[simp] theorem State.useAnswer_fault : s.useAnswer.fault = s.fault := by
  unfold State.useAnswer; split <;> rfl

@[simp] theorem State.useAnswer_trace : s.useAnswer.trace = s.trace := by
  unfold State.useAnswer; split <;> rfl

@[simp] theorem State.useAnswer_statuses : s.useAnswer.statuses = s.statuses := by
  unfold State.useAnswer; split <;> rfl

@[simp] theorem State.useAnswer_requests : s.useAnswer.requests = s.requests := by
  unfold State.useAnswer; split <;> rfl

@[simp] theorem State.useAnswer_hung : s.useAnswer.hung = s.hung := by
  unfold State.useAnswer; split <;> rfl

theorem State.useAnswer_of_cons {a : Answer} {rest : List Answer} (h : s.answers = a :: rest) :
    s.useAnswer = { s with answers := rest } := by
  simp [State.useAnswer, h]

theorem State.useAnswer_of_nil (h : s.answers = []) : s.useAnswer = { s with drawn := s.drawn + 1 } := by
  simp [State.useAnswer, h]

theorem State.nextAnswer_of_cons {a : Answer} {rest : List Answer} (h : s.answers = a :: rest) :
    s.nextAnswer = a := by
  simp [State.nextAnswer, h]

theorem State.nextAnswer_of_nil (h : s.answers = []) :
    s.nextAnswer = if Config.freeAnswer s.drawn then .success else .failure := by
  simp [State.nextAnswer, h]

/-! Every field of a constructed state. -/

variable (p : Params)

@[simp] theorem State.construct_params : (State.construct p).params = p := rfl
@[simp] theorem State.construct_bitOffset : (State.construct p).bitOffset = 0 := rfl
@[simp] theorem State.construct_previousSymbol : (State.construct p).previousSymbol = 0x00#8 := rfl
@[simp] theorem State.construct_frameBuffer : (State.construct p).frameBuffer = Vector.replicate 9 0x00#8 := rfl
@[simp] theorem State.construct_lifecycle : (State.construct p).lifecycle = .inert := rfl
@[simp] theorem State.construct_busOpen : (State.construct p).busOpen = false := rfl
@[simp] theorem State.construct_pinState : (State.construct p).pinState = .unconfigured := rfl
@[simp] theorem State.construct_fault : (State.construct p).fault = false := rfl
@[simp] theorem State.construct_trace : (State.construct p).trace = [] := rfl
@[simp] theorem State.construct_statuses : (State.construct p).statuses = [] := rfl
@[simp] theorem State.construct_requests : (State.construct p).requests = [] := rfl
@[simp] theorem State.construct_answers : (State.construct p).answers = [] := rfl
@[simp] theorem State.construct_drawn : (State.construct p).drawn = 0 := rfl
@[simp] theorem State.construct_hung : (State.construct p).hung = false := rfl

end Sys2Proof.Machine
end

