-- ==== Sys2Proof/Laws/Wire.lean ====
section
/-! SUPPORT. The bits of a symbol, of a transport byte and of a frame: the shift-and-merge algorithm stores the bytes of
the 72-bit frame. -/

namespace Sys2Proof.Machine

theorem frameNumber_append (ys : List Symbol) (y : Symbol) :
    frameNumber (ys ++ [y]) = frameNumber ys * 512 + y.bits.toNat := by
  simp [frameNumber]

theorem frameNumber_testBit (ys : List Symbol) (y : Symbol) (p : Nat) :
    (frameNumber (ys ++ [y])).testBit p =
      if p < 9 then y.bits.getLsbD p else (frameNumber ys).testBit (p - 9) := by
  have h := Nat.testBit_two_pow_mul_add (i := 9) (frameNumber ys) (b := y.bits.toNat) y.bits.isLt p
  rw [frameNumber_append, Nat.mul_comm]
  simpa [BitVec.getLsbD] using h

theorem bits_getLsbD (y : Symbol) (p : Nat) :
    y.bits.getLsbD p = if p < 8 then y.data.getLsbD p else (decide (p = 8) && decide (y.flag = .data)) := by
  unfold Symbol.bits
  rw [BitVec.getLsbD_append]
  split
  · rfl
  · rcases y with ⟨f, d⟩
    cases f with
    | command => simp [Flag.bit]
    | data =>
      simp [Flag.bit]
      omega

theorem transportByte_getLsbD (k : Nat) (hk : k < 8) (prev : Byte) (y : Symbol) (i : Nat) (hi : i < 8) :
    (transportByte k prev y).getLsbD i =
      if 8 - k ≤ i then prev.getLsbD (i - (8 - k))
      else if i = 7 - k then decide (y.flag = .data)
      else y.data.getLsbD (k + 1 + i) := by
  rcases y with ⟨f, d⟩
  interval_cases k <;> interval_cases i <;> cases f <;>
    simp [transportByte, overlayFlag]


theorem frameNumber_testBit_cons8 (a b c d e f g h : Symbol) (p : Nat) :
    (frameNumber [a, b, c, d, e, f, g, h]).testBit p =
      if p < 9 then h.bits.getLsbD p else if p < 18 then g.bits.getLsbD (p - 9) else
      if p < 27 then f.bits.getLsbD (p - 18) else if p < 36 then e.bits.getLsbD (p - 27) else
      if p < 45 then d.bits.getLsbD (p - 36) else if p < 54 then c.bits.getLsbD (p - 45) else
      if p < 63 then b.bits.getLsbD (p - 54) else if p < 72 then a.bits.getLsbD (p - 63) else false := by
  have e0 : frameNumber [] = 0 := rfl
  rw [show [a, b, c, d, e, f, g, h] = ((((((([] ++ [a]) ++ [b]) ++ [c]) ++ [d]) ++ [e]) ++ [f]) ++ [g]) ++ [h] from rfl]
  simp only [frameNumber_testBit, Nat.sub_sub, e0, Nat.zero_testBit]
  by_cases h1 : p < 9
  · simp [h1]
  by_cases h2 : p < 18
  · simp [h1, h2, show p - 9 < 9 by omega]
  by_cases h3 : p < 27
  · simp [h1, h2, h3, show ¬ p - 9 < 9 by omega, show p - 18 < 9 by omega]
  by_cases h4 : p < 36
  · simp [h1, h2, h3, h4, show ¬ p - 9 < 9 by omega, show ¬ p - 18 < 9 by omega, show p - 27 < 9 by omega]
  by_cases h5 : p < 45
  · simp [h1, h2, h3, h4, h5, show ¬ p - 9 < 9 by omega, show ¬ p - 18 < 9 by omega, show ¬ p - 27 < 9 by omega,
      show p - 36 < 9 by omega]
  by_cases h6 : p < 54
  · simp [h1, h2, h3, h4, h5, h6, show ¬ p - 9 < 9 by omega, show ¬ p - 18 < 9 by omega, show ¬ p - 27 < 9 by omega,
      show ¬ p - 36 < 9 by omega, show p - 45 < 9 by omega]
  by_cases h7 : p < 63
  · simp [h1, h2, h3, h4, h5, h6, h7, show ¬ p - 9 < 9 by omega, show ¬ p - 18 < 9 by omega,
      show ¬ p - 27 < 9 by omega, show ¬ p - 36 < 9 by omega, show ¬ p - 45 < 9 by omega, show p - 54 < 9 by omega]
  by_cases h8 : p < 72
  · simp [h1, h2, h3, h4, h5, h6, h7, h8, show ¬ p - 9 < 9 by omega, show ¬ p - 18 < 9 by omega,
      show ¬ p - 27 < 9 by omega, show ¬ p - 36 < 9 by omega, show ¬ p - 45 < 9 by omega, show ¬ p - 54 < 9 by omega,
      show p - 63 < 9 by omega]
  · simp [h1, h2, h3, h4, h5, h6, h7, h8, show ¬ p - 9 < 9 by omega, show ¬ p - 18 < 9 by omega,
      show ¬ p - 27 < 9 by omega, show ¬ p - 36 < 9 by omega, show ¬ p - 45 < 9 by omega, show ¬ p - 54 < 9 by omega,
      show ¬ p - 63 < 9 by omega]

theorem frameOf_eight (a b c d e f g h : Symbol) :
    frameOf [a, b, c, d, e, f, g, h] =
      #v[transportByte 0 0 a, transportByte 1 a.data b, transportByte 2 b.data c, transportByte 3 c.data d,
        transportByte 4 d.data e, transportByte 5 e.data f, transportByte 6 f.data g, transportByte 7 g.data h,
        h.data] := by
  apply Vector.ext
  intro j hj
  apply BitVec.eq_of_getLsbD_eq
  intro i hi
  simp only [frameOf, Vector.getElem_ofFn, BitVec.getLsbD_ofNat, Nat.testBit_shiftRight, hi, decide_true,
    Bool.true_and, frameNumber_testBit_cons8]
  interval_cases j <;>
    simp only [Vector.getElem_mk, List.getElem_toArray, List.getElem_cons_zero, List.getElem_cons_succ,
      transportByte_getLsbD _ (by decide : (0 : Nat) < 8), transportByte_getLsbD _ (by decide : (1 : Nat) < 8),
      transportByte_getLsbD _ (by decide : (2 : Nat) < 8), transportByte_getLsbD _ (by decide : (3 : Nat) < 8),
      transportByte_getLsbD _ (by decide : (4 : Nat) < 8), transportByte_getLsbD _ (by decide : (5 : Nat) < 8),
      transportByte_getLsbD _ (by decide : (6 : Nat) < 8), transportByte_getLsbD _ (by decide : (7 : Nat) < 8), hi] <;>
    interval_cases i <;> simp only [bits_getLsbD] <;> simp
/-- A list of eight symbols is eight symbols. -/
theorem eq_eight_of_length {ys : List Symbol} (h : ys.length = 8) :
    ∃ a b c d e f g x, ys = [a, b, c, d, e, f, g, x] := by
  match ys, h with
  | [a, b, c, d, e, f, g, x], _ => exact ⟨a, b, c, d, e, f, g, x, rfl⟩

/-- Byte `j` of a frame is the byte SUBMIT stores at position `j` for its symbol and the one before. -/
theorem frameOf_getElem {ys : List Symbol} (h : ys.length = 8) (j : Nat) (hj : j < 8) :
    (frameOf ys)[j] = transportByte j (if j = 0 then 0 else (ys[j - 1]'(by omega)).data) (ys[j]'(by omega)) := by
  obtain ⟨a, b, c, d, e, f, g, x, rfl⟩ := eq_eight_of_length h
  rw [frameOf_eight]
  interval_cases j <;> rfl

/-- The last byte of a frame is the last symbol's. -/
theorem frameOf_last {ys : List Symbol} (h : ys.length = 8) : (frameOf ys)[8] = (ys[7]'(by omega)).data := by
  obtain ⟨a, b, c, d, e, f, g, x, rfl⟩ := eq_eight_of_length h
  rw [frameOf_eight]
  rfl

/-- The stored byte as three disjoint parts (40_framer.md R112). -/
theorem transportByte_eq_or (k : Nat) (hk : k < 8) (prev : Byte) (y : Symbol) :
    transportByte k prev y =
      (prev <<< (8 - k)) ||| ((if y.flag = .data then 1#8 else 0#8) <<< (7 - k)) ||| (y.data >>> (k + 1)) := by
  apply BitVec.eq_of_getLsbD_eq
  intro i hi
  rw [transportByte_getLsbD k hk prev y i hi]
  rcases y with ⟨f, d⟩
  interval_cases k <;> interval_cases i <;> cases f <;> simp

/-- At position 0 the byte before does not matter (40_framer.md R111). -/
theorem transportByte_zero (prev : Byte) (y : Symbol) : transportByte 0 prev y = transportByte 0 0 y := by
  simp [transportByte]

end Sys2Proof.Machine
end

