-- ==== Sys2Proof/Laws/Ops.lean ====
section
/-! SUPPORT. What each shared operation can do, said once. -/

namespace Sys2Proof.Machine

/-! ### Runs -/

/-- The run goes on, has raised a condition, or is stuck, in a state that meets the given predicate. -/
def Run.Sat (r : Run) (G : State → Prop) (R : Status → State → Prop) (K : State → Prop) : Prop :=
  match r with
  | .going s => G s
  | .raised c s => R c s
  | .stuck s => K s

section
variable {G G' : State → Prop} {R R' : Status → State → Prop} {K K' : State → Prop}

@[simp] theorem Run.sat_going (s : State) : (Run.going s).Sat G R K ↔ G s := Iff.rfl
@[simp] theorem Run.sat_raised (c : Status) (s : State) : (Run.raised c s).Sat G R K ↔ R c s := Iff.rfl
@[simp] theorem Run.sat_stuck (s : State) : (Run.stuck s).Sat G R K ↔ K s := Iff.rfl

theorem Run.Sat.mono {r : Run} (h : r.Sat G R K) (hG : ∀ s, G s → G' s) (hR : ∀ c s, R c s → R' c s)
    (hK : ∀ s, K s → K' s) : r.Sat G' R' K' := by
  cases r with
  | going s => exact hG s h
  | raised c s => exact hR c s h
  | stuck s => exact hK s h

/-- A sequence meets what its second part meets from every state its first part can reach. -/
theorem Run.Sat.andThen {r : Run} {f : State → Run} (h : r.Sat G' R K) (hf : ∀ s, G' s → (f s).Sat G R K) :
    (r.andThen f).Sat G R K := by
  cases r with
  | going s => exact hf s h
  | raised c s => exact h
  | stuck s => exact h

theorem Run.Sat.onReturn {r : Run} {f : State → State} (h : r.Sat G' R' K) (hG : ∀ s, G' s → G (f s))
    (hR : ∀ c s, R' c s → R c (f s)) : (r.onReturn f).Sat G R K := by
  cases r with
  | going s => exact hG s h
  | raised c s => exact hR c s h
  | stuck s => exact h

end

@[simp] theorem Run.going_andThen (s : State) (f : State → Run) : (Run.going s).andThen f = f s := rfl
@[simp] theorem Run.raised_andThen (c : Status) (s : State) (f : State → Run) :
    (Run.raised c s).andThen f = .raised c s := rfl
@[simp] theorem Run.stuck_andThen (s : State) (f : State → Run) : (Run.stuck s).andThen f = .stuck s := rfl

theorem Run.andThen_assoc (r : Run) (f g : State → Run) :
    (r.andThen f).andThen g = r.andThen fun s => (f s).andThen g := by
  cases r <;> rfl

@[simp] theorem Run.finish_going (s : State) : (Run.going s).finish = s.report .ok := rfl
@[simp] theorem Run.finish_raised (c : Status) (s : State) : (Run.raised c s).finish = s.report c := rfl
@[simp] theorem Run.finish_stuck (s : State) : (Run.stuck s).finish = s.hang := rfl

/-! ### Calls to the transport -/

theorem transport_of_success {e : Event} {s : State} {rest : List Answer} (h : s.answers = .success :: rest) :
    transport e s = .going { s with trace := s.trace ++ [e], answers := rest } := by
  simp [transport, State.nextAnswer, State.useAnswer, h, State.emit]

theorem transport_of_failure {e : Event} {s : State} {rest : List Answer} (h : s.answers = .failure :: rest) :
    transport e s = .raised .transportFailure
      { s with trace := s.trace ++ [e], answers := rest, bitOffset := 0, previousSymbol := 0x00#8, fault := true } := by
  simp [transport, State.nextAnswer, State.useAnswer, h, State.emit, State.failed, State.toBoundary]

theorem transport_of_noReturn {e : Event} {s : State} {rest : List Answer} (h : s.answers = .noReturn :: rest) :
    transport e s = .stuck { s with trace := s.trace ++ [e], answers := rest } := by
  simp [transport, State.nextAnswer, State.useAnswer, h, State.emit]

theorem transport_of_free {e : Event} {s : State} (h : s.answers = []) :
    transport e s = if Config.freeAnswer s.drawn then
        .going { s with trace := s.trace ++ [e], drawn := s.drawn + 1 }
      else .raised .transportFailure
        { s with
          trace := s.trace ++ [e], drawn := s.drawn + 1, bitOffset := 0, previousSymbol := 0x00#8, fault := true } := by
  cases hb : Config.freeAnswer s.drawn <;>
    simp [transport, State.nextAnswer, State.useAnswer, h, State.emit, State.failed, State.toBoundary, hb]

/-- Everything one call can do. -/
theorem transport_sat (e : Event) (s : State) :
    (transport e s).Sat (fun t => t = (s.emit e).useAnswer)
      (fun c t => c = .transportFailure ∧ t = (s.emit e).useAnswer.failed) (fun t => t = (s.emit e).useAnswer) := by
  unfold transport
  split <;> simp

/-! ### The framer -/

/-- From `s` to `t` only the framer, the mark, the answers and the trace have changed, and the trace only by transfers
and delays at its end. -/
structure FramerOnly (s t : State) : Prop where
  params : t.params = s.params
  lifecycle : t.lifecycle = s.lifecycle
  busOpen : t.busOpen = s.busOpen
  pinState : t.pinState = s.pinState
  statuses : t.statuses = s.statuses
  requests : t.requests = s.requests
  hung : t.hung = s.hung
  trace : ∃ ev, t.trace = s.trace ++ ev ∧ ∀ e ∈ ev, e.isTransfer = true ∨ ∃ d, e = .delay d

theorem FramerOnly.refl (s : State) : FramerOnly s s :=
  ⟨rfl, rfl, rfl, rfl, rfl, rfl, rfl, [], by simp, by simp⟩

theorem FramerOnly.trans {s t u : State} (h : FramerOnly s t) (h' : FramerOnly t u) : FramerOnly s u := by
  obtain ⟨ev, h1, h2⟩ := h.trace
  obtain ⟨ev', h1', h2'⟩ := h'.trace
  refine ⟨by rw [h'.params, h.params], by rw [h'.lifecycle, h.lifecycle], by rw [h'.busOpen, h.busOpen],
    by rw [h'.pinState, h.pinState], by rw [h'.statuses, h.statuses], by rw [h'.requests, h.requests],
    by rw [h'.hung, h.hung], ev ++ ev', by rw [h1', h1, List.append_assoc], ?_⟩
  intro e he
  rcases List.mem_append.1 he with h | h
  · exact h2 e h
  · exact h2' e h

/-- The three ways a piece of framer work that started in `s` can stand: it goes on; it has ended with a transport
failure at a frame boundary; or it is stuck. `prev` is clear at a boundary if it was so at the start. -/
abbrev FramerWork (s : State) (r : Run) : Prop :=
  r.Sat
    (fun t => FramerOnly s t ∧ t.fault = s.fault ∧
      ((s.bitOffset = 0 → s.previousSymbol = 0x00#8) → t.bitOffset = 0 → t.previousSymbol = 0x00#8))
    (fun c t => c = .transportFailure ∧ FramerOnly s t ∧ t.fault = true ∧ t.bitOffset = 0 ∧ t.previousSymbol = 0x00#8)
    (fun t => FramerOnly s t ∧ t.fault = s.fault ∧ (t.bitOffset = 0 → t.previousSymbol = 0x00#8))

theorem FramerWork.andThen {s : State} {r : Run} {f : State → Run} (h : FramerWork s r)
    (hf : ∀ t, FramerWork t (f t)) : FramerWork s (r.andThen f) := by
  refine Run.Sat.andThen h fun t ⟨h1, h2, h3⟩ => ?_
  refine (hf t).mono ?_ ?_ ?_
  · rintro u ⟨h1', h2', h3'⟩
    exact ⟨h1.trans h1', h2'.trans h2, fun hs => h3' (h3 hs)⟩
  · rintro c u ⟨rfl, h1', h2'⟩
    exact ⟨rfl, h1.trans h1', h2'⟩
  · rintro u ⟨h1', h2', h3'⟩
    exact ⟨h1.trans h1', h2'.trans h2, h3'⟩

/-- SUBMIT at `k` in 0..6, as one state. -/
theorem submitSymbol_of_lt {s : State} (y : Symbol) (h : s.bitOffset.val < 7) :
    submitSymbol y s = .going
      { s with
        frameBuffer := s.frameBuffer.set s.bitOffset.val (transportByte s.bitOffset.val s.previousSymbol y)
        previousSymbol := y.data
        bitOffset := s.bitOffset + 1 } := by
  have : s.bitOffset ≠ 7 := fun h' => by rw [h'] at h; exact absurd h (by decide)
  simp [submitSymbol, this]

/-- The state in which SUBMIT at `k = 7` makes its transfer. -/
def State.full (s : State) (y : Symbol) : State :=
  { s with
    frameBuffer := (s.frameBuffer.set 7 (transportByte 7 s.previousSymbol y)).set 8 y.data
    previousSymbol := y.data }

/-- SUBMIT at `k = 7`, as its one transfer. -/
theorem submitSymbol_of_seven {s : State} (y : Symbol) (h : s.bitOffset = 7) :
    submitSymbol y s =
      (transport (.busTransfer (s.full y).frameBuffer) (s.full y)).andThen fun t => .going t.toBoundary := by
  rcases s with ⟨p, k, _⟩
  simp only at h
  subst h
  rfl

/-- Everything SUBMIT can do. -/
theorem submitSymbol_work (y : Symbol) (s : State) : FramerWork s (submitSymbol y s) := by
  by_cases h : s.bitOffset = 7
  · rw [submitSymbol_of_seven y h]
    have hev : ∀ e ∈ [Event.busTransfer (s.full y).frameBuffer], e.isTransfer = true ∨ ∃ d, e = .delay d := by
      simp [Event.isTransfer]
    refine Run.Sat.andThen (G' := fun t => t = ((s.full y).emit (.busTransfer (s.full y).frameBuffer)).useAnswer)
      ((transport_sat _ _).mono (fun _ h => h) ?_ ?_) ?_
    · rintro c t ⟨rfl, rfl⟩
      exact ⟨rfl, ⟨by simp [State.full], by simp [State.full], by simp [State.full], by simp [State.full],
        by simp [State.full], by simp [State.full], by simp [State.full], _, by simp [State.full], hev⟩,
        by simp⟩
    · rintro t rfl
      refine ⟨⟨by simp [State.full], by simp [State.full], by simp [State.full], by simp [State.full],
        by simp [State.full], by simp [State.full], by simp [State.full], _, by simp [State.full], hev⟩,
        by simp [State.full], ?_⟩
      simp [State.full, h]
    · rintro t rfl
      refine ⟨⟨by simp [State.full], by simp [State.full], by simp [State.full], by simp [State.full],
        by simp [State.full], by simp [State.full], by simp [State.full], _, by simp [State.full], hev⟩,
        by simp [State.full], by simp⟩
  · have hk : s.bitOffset.val < 7 := by
      have := s.bitOffset.isLt
      have : s.bitOffset.val ≠ 7 := fun h' => h (Fin.ext h')
      omega
    rw [submitSymbol_of_lt y hk]
    refine ⟨⟨rfl, rfl, rfl, rfl, rfl, rfl, rfl, [], by simp, by simp⟩, rfl, ?_⟩
    intro _ h0
    have := congrArg Fin.val h0
    simp [Fin.val_add] at this
    omega

/-- `k` goes up by one at each SUBMIT that goes on, and from 7 back to 0. -/
theorem submitSymbol_bitOffset (y : Symbol) (s : State) :
    (submitSymbol y s).Sat (fun t => t.bitOffset = s.bitOffset + 1) (fun _ _ => True) (fun _ => True) := by
  by_cases h : s.bitOffset = 7
  · rw [submitSymbol_of_seven y h]
    refine Run.Sat.andThen ((transport_sat _ _).mono (fun _ h => h) (fun _ _ _ => trivial) (fun _ _ => trivial)) ?_
    rintro t rfl
    simp [h]
  · have hk : s.bitOffset.val < 7 := by
      have := s.bitOffset.isLt
      have : s.bitOffset.val ≠ 7 := fun h' => h (Fin.ext h')
      omega
    rw [submitSymbol_of_lt y hk]
    rfl

theorem flushLoop_work (n : Nat) (s : State) : FramerWork s (flushLoop n s) := by
  induction n generalizing s with
  | zero => exact ⟨FramerOnly.refl s, rfl, fun h => h⟩
  | succ n ih =>
    unfold flushLoop
    split
    · exact (submitSymbol_work _ s).andThen fun t => ih t
    · exact ⟨FramerOnly.refl s, rfl, fun h => h⟩

/-- Everything FLUSH can do. -/
theorem flush_work (s : State) : FramerWork s (flush s) := flushLoop_work 7 s

/-- FLUSH that goes on ends at `k = 0` (40_framer.md R121). -/
theorem flush_bitOffset (s : State) :
    (flush s).Sat (fun t => t.bitOffset = 0) (fun _ _ => True) (fun _ => True) := by
  have key : ∀ n, ∀ s : State, (s.bitOffset = 0 ∨ 8 ≤ s.bitOffset.val + n) →
      (flushLoop n s).Sat (fun t => t.bitOffset = 0) (fun _ _ => True) (fun _ => True) := by
    intro n
    induction n with
    | zero =>
      intro s h
      rcases h with h | h
      · exact h
      · have := s.bitOffset.isLt
        omega
    | succ n ih =>
      intro s h
      unfold flushLoop
      split
      · next hk =>
        refine Run.Sat.andThen (submitSymbol_bitOffset _ s) fun t ht => ih t ?_
        rw [ht]
        by_cases h7 : s.bitOffset = 7
        · left
          rw [h7]
          rfl
        · right
          have h1 := s.bitOffset.isLt
          have h2 : s.bitOffset.val ≠ 7 := fun h' => h7 (Fin.ext h')
          have h3 : s.bitOffset ≠ 0 := fun h' => by rw [h'] at hk; exact absurd hk (by decide)
          have h4 : 8 ≤ s.bitOffset.val + (n + 1) := h.resolve_left h3
          have h5 : (s.bitOffset + 1).val = s.bitOffset.val + 1 := by
            simp [Fin.val_add]
            omega
          omega
      · next hk => exact Fin.ext (by simpa using hk)
  refine key 7 s ?_
  by_cases h : s.bitOffset.val = 0
  · exact Or.inl (Fin.ext h)
  · right
    omega

theorem runItem_work (i : Item) (s : State) : FramerWork s (runItem i s) := by
  cases i with
  | sym y => exact submitSymbol_work y s
  | wait t =>
    exact ⟨⟨rfl, rfl, rfl, rfl, rfl, rfl, rfl, [.delay t], rfl, by simp⟩, rfl, fun h => h⟩

/-- Everything a script can do. -/
theorem runScript_work (script : List Item) (s : State) : FramerWork s (runScript script s) := by
  induction script generalizing s with
  | nil => exact ⟨FramerOnly.refl s, rfl, fun h => h⟩
  | cons i rest ih => exact (runItem_work i s).andThen fun t => ih t

/-- Everything `run(script); FLUSH()` can do. -/
theorem runThenFlush_work (script : List Item) (s : State) : FramerWork s (runThenFlush script s) :=
  (runScript_work script s).andThen flush_work

/-- `run(script); FLUSH()` that goes on ends at `k = 0`. -/
theorem runThenFlush_bitOffset (script : List Item) (s : State) :
    (runThenFlush script s).Sat (fun t => t.bitOffset = 0) (fun _ _ => True) (fun _ => True) :=
  Run.Sat.andThen ((runScript_work script s).mono (G' := fun _ => True) (fun _ _ => trivial) (fun _ _ _ => trivial)
    (fun _ _ => trivial)) fun t _ => flush_bitOffset t

/-! ### The guard -/

theorem guarded_of_inert {s : State} (h : s.lifecycle = .inert) (f : State → Run) :
    guarded s f = .raised .notInitialized s := by
  simp [guarded, h]

theorem guarded_of_closed {s : State} (h : s.lifecycle = .closed) (f : State → Run) :
    guarded s f = .raised .alreadyClosed s := by
  simp [guarded, h]

theorem guarded_of_operational {s : State} (h : s.lifecycle = .operational) (f : State → Run) :
    guarded s f = f s := by
  simp [guarded, h]

end Sys2Proof.Machine
end

