-- ==== Sys2Proof/Laws/Exec.lean ====
section
/-! SUPPORT. What an instruction can do, said once: every next state of `exec` is one of four kinds. -/

namespace Sys2Proof.Machine

/-- The conditions that are raised before anything is done, and where (60_exceptions.md R190, R200). -/
inductive Refuses (i : Instr) (s : State) : Status → Prop where
  | inert (hs : s.lifecycle = .inert) (hi : i.isSequencer = true) (hne : i ≠ .initializeSession)
      (hr : i.isRotation = true → s.params.family = .philips) : Refuses i s .notInitialized
  | closed (hs : s.lifecycle = .closed) (hi : i.isSequencer = true) (hne : i ≠ .initializeSession)
      (hr : i.isRotation = true → s.params.family = .philips) : Refuses i s .alreadyClosed
  | family (hi : i.isRotation = true) (hf : s.params.family = .epson) : Refuses i s .unsupported
  | again (hi : i = .initializeSession) (hs : s.lifecycle = .operational) : Refuses i s .alreadyInitialized

/-- The four kinds of next state. -/
inductive ExecKind (i : Instr) (s t : State) : Prop where
  /-- A condition raised first. -/
  | refused (c : Status) (hc : Refuses i s c) (ht : t = s.report c)
  /-- Framer work: SUBMIT, FLUSH, a named symbol, or a script of an Operational session. -/
  | framer (h1 : i ≠ .initializeSession) (h2 : i ≠ .close)
      (h3 : i.isSequencer = true → s.lifecycle = .operational)
      (h4 : i.isRotation = true → s.params.family = .philips) (r : Run) (hr : FramerWork s r)
      (hk : i.isSequencer = true → r.Sat (fun t => t.bitOffset = 0) (fun _ _ => True) (fun _ => True))
      (ht : t = r.finish)
  /-- INITIALIZE runs. -/
  | powerUp (hi : i = .initializeSession) (hs : s.lifecycle ≠ .operational) (ht : t = (powerUp s).finish)
  /-- CLOSE runs. -/
  | release (hi : i = .close) (hs : s.lifecycle = .operational) (ht : t = (release s).finish)

/-- A guarded script either is refused or is framer work. -/
theorem guarded_script_kind {i : Instr} {s t : State} (script : List Item) (hi : i.isSequencer = true)
    (h1 : i ≠ .initializeSession) (h2 : i ≠ .close) (h4 : i.isRotation = true → s.params.family = .philips)
    (ht : t = (guarded s (runThenFlush script)).finish) : ExecKind i s t := by
  cases hs : s.lifecycle with
  | inert =>
    rw [guarded_of_inert hs] at ht
    exact .refused _ (.inert hs hi h1 h4) ht
  | closed =>
    rw [guarded_of_closed hs] at ht
    exact .refused _ (.closed hs hi h1 h4) ht
  | operational =>
    rw [guarded_of_operational hs] at ht
    exact .framer h1 h2 (fun _ => hs) h4 _ (runThenFlush_work script s)
      (fun _ => runThenFlush_bitOffset script s) ht

theorem rotate_kind {i : Instr} {s t : State} (b : Byte) (hi : i.isRotation = true) (hq : i.isSequencer = true)
    (h1 : i ≠ .initializeSession) (h2 : i ≠ .close) (ht : t = (rotate b s).finish) : ExecKind i s t := by
  unfold rotate at ht
  split at ht
  · next hf => exact .refused _ (.family hi hf) ht
  · next hf => exact guarded_script_kind _ hq h1 h2 (fun _ => hf) ht

theorem submit_kind {i : Instr} {s t : State} (y : Symbol) (hq : i.isSequencer = false) (hi : i.isRotation = false)
    (ht : t = (submitSymbol y s).finish) : ExecKind i s t :=
  .framer (by rintro rfl; simp [Instr.isSequencer] at hq) (by rintro rfl; simp [Instr.isSequencer] at hq)
    (by simp [hq]) (by simp [hi]) _ (submitSymbol_work y s) (by simp [hq]) ht

/-- Every next state of `exec` is one of the four kinds. -/
theorem exec_kind {i : Instr} {s t : State} (h : exec i s = .next t) : ExecKind i s t := by
  cases i with
  | submit f d => exact submit_kind _ rfl rfl (Host.Outcome.next.inj h).symm
  | flush =>
    exact .framer (by simp) (by simp) (by simp [Instr.isSequencer]) (by simp [Instr.isRotation]) _ (flush_work s)
      (by simp [Instr.isSequencer]) (Host.Outcome.next.inj h).symm
  | initializeSession =>
    have ht := (Host.Outcome.next.inj h).symm
    by_cases hs : s.lifecycle = .operational
    · rw [if_pos hs] at ht
      exact .refused _ (.again rfl hs) ht
    · rw [if_neg hs] at ht
      exact .powerUp rfl hs ht
  | display raw =>
    simp only [exec, execDisplay] at h
    split at h
    · cases h
    · exact guarded_script_kind _ rfl (by simp) (by simp) (by simp [Instr.isRotation])
        (Host.Outcome.next.inj h).symm
  | turnOff =>
    exact guarded_script_kind _ rfl (by simp) (by simp) (by simp [Instr.isRotation]) (Host.Outcome.next.inj h).symm
  | turnOn =>
    exact guarded_script_kind _ rfl (by simp) (by simp) (by simp [Instr.isRotation]) (Host.Outcome.next.inj h).symm
  | rotateNone => exact rotate_kind _ rfl rfl (by simp) (by simp) (Host.Outcome.next.inj h).symm
  | rotate180 => exact rotate_kind _ rfl rfl (by simp) (by simp) (Host.Outcome.next.inj h).symm
  | rotate90cw => exact rotate_kind _ rfl rfl (by simp) (by simp) (Host.Outcome.next.inj h).symm
  | rotate90ccw => exact rotate_kind _ rfl rfl (by simp) (by simp) (Host.Outcome.next.inj h).symm
  | close =>
    have ht := (Host.Outcome.next.inj h).symm
    cases hs : s.lifecycle with
    | inert =>
      rw [guarded_of_inert hs] at ht
      exact .refused _ (.inert hs rfl (by simp) (by simp [Instr.isRotation])) ht
    | closed =>
      rw [guarded_of_closed hs] at ht
      exact .refused _ (.closed hs rfl (by simp) (by simp [Instr.isRotation])) ht
    | operational =>
      rw [guarded_of_operational hs] at ht
      exact .release rfl hs ht
  | phNop => exact submit_kind _ rfl rfl (Host.Outcome.next.inj h).symm
  | epNop => exact submit_kind _ rfl rfl (Host.Outcome.next.inj h).symm
  | epDisoff => exact submit_kind _ rfl rfl (Host.Outcome.next.inj h).symm
  | epSlpin => exact submit_kind _ rfl rfl (Host.Outcome.next.inj h).symm
  | phRotNone => exact submit_kind _ rfl rfl (Host.Outcome.next.inj h).symm
  | phRot180 => exact submit_kind _ rfl rfl (Host.Outcome.next.inj h).symm
  | phRot90cw => exact submit_kind _ rfl rfl (Host.Outcome.next.inj h).symm
  | phRot90ccw => exact submit_kind _ rfl rfl (Host.Outcome.next.inj h).symm
  | addrLow => exact submit_kind _ rfl rfl (Host.Outcome.next.inj h).symm
  | addrHigh => exact submit_kind _ rfl rfl (Host.Outcome.next.inj h).symm
  | epDisctlLines => exact submit_kind _ rfl rfl (Host.Outcome.next.inj h).symm

/-! ### INITIALIZE and CLOSE -/

/-- The pulse on the reset line, as one update (42_session.md R143). -/
theorem resetPulse_eq (s : State) :
    resetPulse s =
      { s with
        pinState := .outHigh
        trace := s.trace ++ [.pinConfigOutput s.params.resetLine, .pinSet s.params.resetLine .low, .delay .resetLow,
          .pinSet s.params.resetLine .high, .delay .resetHigh] } := by
  simp [resetPulse, State.emit]

@[simp] theorem resetPulse_params (s : State) : (resetPulse s).params = s.params := by rw [resetPulse_eq]
@[simp] theorem resetPulse_bitOffset (s : State) : (resetPulse s).bitOffset = s.bitOffset := by rw [resetPulse_eq]
@[simp] theorem resetPulse_previousSymbol (s : State) : (resetPulse s).previousSymbol = s.previousSymbol := by rw [resetPulse_eq]
@[simp] theorem resetPulse_frameBuffer (s : State) : (resetPulse s).frameBuffer = s.frameBuffer := by rw [resetPulse_eq]
@[simp] theorem resetPulse_lifecycle (s : State) : (resetPulse s).lifecycle = s.lifecycle := by rw [resetPulse_eq]
@[simp] theorem resetPulse_busOpen (s : State) : (resetPulse s).busOpen = s.busOpen := by rw [resetPulse_eq]
@[simp] theorem resetPulse_fault (s : State) : (resetPulse s).fault = s.fault := by rw [resetPulse_eq]
@[simp] theorem resetPulse_statuses (s : State) : (resetPulse s).statuses = s.statuses := by rw [resetPulse_eq]
@[simp] theorem resetPulse_requests (s : State) : (resetPulse s).requests = s.requests := by rw [resetPulse_eq]
@[simp] theorem resetPulse_answers (s : State) : (resetPulse s).answers = s.answers := by rw [resetPulse_eq]
@[simp] theorem resetPulse_drawn (s : State) : (resetPulse s).drawn = s.drawn := by rw [resetPulse_eq]
@[simp] theorem resetPulse_hung (s : State) : (resetPulse s).hung = s.hung := by rw [resetPulse_eq]
@[simp] theorem resetPulse_pinState (s : State) : (resetPulse s).pinState = .outHigh := by rw [resetPulse_eq]
@[simp] theorem resetPulse_trace (s : State) : (resetPulse s).trace = s.trace ++
    [.pinConfigOutput s.params.resetLine, .pinSet s.params.resetLine .low, .delay .resetLow,
     .pinSet s.params.resetLine .high, .delay .resetHigh] := by
  rw [resetPulse_eq]

/-- From `s` to `t` a session operation may change the session fields as well, but neither the parameters, nor the
waiting requests, nor the statuses, and the trace only grows. -/
structure SessionOnly (s t : State) : Prop where
  params : t.params = s.params
  statuses : t.statuses = s.statuses
  requests : t.requests = s.requests
  hung : t.hung = s.hung
  trace : s.trace <+: t.trace

theorem FramerOnly.session {s t : State} (h : FramerOnly s t) : SessionOnly s t :=
  ⟨h.params, h.statuses, h.requests, h.hung, by obtain ⟨ev, h1, _⟩ := h.trace; exact ⟨ev, h1.symm⟩⟩

theorem SessionOnly.trans {s t u : State} (h : SessionOnly s t) (h' : SessionOnly t u) : SessionOnly s u :=
  ⟨by rw [h'.params, h.params], by rw [h'.statuses, h.statuses], by rw [h'.requests, h.requests],
    by rw [h'.hung, h.hung], h.trace.trans h'.trace⟩

theorem session_emit_use (e : Event) (s : State) : SessionOnly s (s.emit e).useAnswer :=
  ⟨by simp, by simp, by simp, by simp, by simp⟩

/-- What INITIALIZE has done by the time its first call is made. -/
abbrev FirstOpens (s t : State) : Prop :=
  ∃ ev, t.trace = s.trace ++ .busOpen s.params.spiBus s.params.chipSelect :: ev

/-- Everything the bus configuration can do. -/
theorem configureBus_sat (s : State) :
    (configureBus s).Sat
      (fun t => SessionOnly s t ∧ FirstOpens s t ∧ t.busOpen = true ∧ t.pinState = s.pinState ∧
        t.lifecycle = s.lifecycle ∧ t.fault = s.fault ∧ t.bitOffset = s.bitOffset ∧
        t.previousSymbol = s.previousSymbol)
      (fun c t => c = .transportFailure ∧ SessionOnly s t ∧ FirstOpens s t ∧ (s.busOpen = true → t.busOpen = true) ∧
        t.pinState = s.pinState ∧ t.lifecycle = s.lifecycle ∧ t.fault = true ∧ t.bitOffset = 0 ∧
        t.previousSymbol = 0x00#8)
      (fun t => SessionOnly s t ∧ FirstOpens s t ∧ (s.busOpen = true → t.busOpen = true) ∧
        t.pinState = s.pinState ∧ t.lifecycle = s.lifecycle ∧ t.fault = s.fault ∧ t.bitOffset = s.bitOffset ∧
        t.previousSymbol = s.previousSymbol) := by
  unfold configureBus
  refine Run.Sat.andThen ((transport_sat _ s).mono (G' := fun t => t = (s.emit _).useAnswer) (fun _ h => h) ?_ ?_) ?_
  · rintro c t ⟨rfl, rfl⟩
    exact ⟨rfl, ⟨by simp, by simp, by simp, by simp, by simp⟩, ⟨[], by simp⟩, by simp⟩
  · rintro t rfl
    exact ⟨⟨by simp, by simp, by simp, by simp, by simp⟩, ⟨[], by simp⟩, by simp⟩
  rintro t1 rfl
  refine Run.Sat.andThen ((transport_sat _ _).mono (G' := fun t => t = (State.emit _ _).useAnswer)
    (fun _ h => h) ?_ ?_) ?_
  · rintro c t ⟨rfl, rfl⟩
    exact ⟨rfl, ⟨by simp, by simp, by simp, by simp, by simp⟩, ⟨[.busSetMode 0], by simp⟩, by simp⟩
  · rintro t rfl
    exact ⟨⟨by simp, by simp, by simp, by simp, by simp⟩, ⟨[.busSetMode 0], by simp⟩, by simp⟩
  rintro t2 rfl
  refine Run.Sat.andThen ((transport_sat _ _).mono (G' := fun t => t = (State.emit _ _).useAnswer)
    (fun _ h => h) ?_ ?_) ?_
  · rintro c t ⟨rfl, rfl⟩
    exact ⟨rfl, ⟨by simp, by simp, by simp, by simp, by simp⟩, ⟨[.busSetMode 0, .busSetBitOrder .msbFirst], by simp⟩, by simp⟩
  · rintro t rfl
    exact ⟨⟨by simp, by simp, by simp, by simp, by simp⟩, ⟨[.busSetMode 0, .busSetBitOrder .msbFirst], by simp⟩, by simp⟩
  rintro t3 rfl
  refine (transport_sat _ _).mono ?_ ?_ ?_
  · rintro t rfl
    exact ⟨⟨by simp, by simp, by simp, by simp, by simp⟩,
      ⟨[.busSetMode 0, .busSetBitOrder .msbFirst, .busSetClock (clockHz s.params.clockMhz)], by simp⟩, by simp⟩
  · rintro c t ⟨rfl, rfl⟩
    exact ⟨rfl, ⟨by simp, by simp, by simp, by simp, by simp⟩,
      ⟨[.busSetMode 0, .busSetBitOrder .msbFirst, .busSetClock (clockHz s.params.clockMhz)], by simp⟩, by simp⟩
  · rintro t rfl
    exact ⟨⟨by simp, by simp, by simp, by simp, by simp⟩,
      ⟨[.busSetMode 0, .busSetBitOrder .msbFirst, .busSetClock (clockHz s.params.clockMhz)], by simp⟩, by simp⟩

/-- Everything steps 1 to 13 of INITIALIZE can do. -/
theorem powerUp_sat (s : State) :
    (powerUp s).Sat
      (fun t => SessionOnly s t ∧ FirstOpens s t ∧ t.busOpen = true ∧ t.pinState = .outHigh ∧
        t.lifecycle = .operational ∧ t.fault = s.fault ∧ t.bitOffset = 0 ∧
        ((s.bitOffset = 0 → s.previousSymbol = 0x00#8) → t.previousSymbol = 0x00#8))
      (fun c t => c = .transportFailure ∧ SessionOnly s t ∧ FirstOpens s t ∧ (s.busOpen = true → t.busOpen = true) ∧
        (t.pinState = s.pinState ∨ (t.pinState = .outHigh ∧ t.busOpen = true)) ∧ t.lifecycle = s.lifecycle ∧
        t.fault = true ∧ t.bitOffset = 0 ∧ t.previousSymbol = 0x00#8)
      (fun t => SessionOnly s t ∧ FirstOpens s t ∧ (s.busOpen = true → t.busOpen = true) ∧
        (t.pinState = s.pinState ∨ (t.pinState = .outHigh ∧ t.busOpen = true)) ∧ t.lifecycle = s.lifecycle ∧
        t.fault = s.fault ∧
        ((s.bitOffset = 0 → s.previousSymbol = 0x00#8) → t.bitOffset = 0 → t.previousSymbol = 0x00#8)) := by
  unfold powerUp
  refine Run.Sat.andThen ((configureBus_sat s).mono (fun _ h => h) ?_ ?_) ?_
  · rintro c t ⟨h1, h2, h3, h4, h5, h6⟩
    exact ⟨h1, h2, h3, h4, .inl h5, h6⟩
  · rintro t ⟨h2, h3, h4, h5, h6, h7, h8, h9⟩
    exact ⟨h2, h3, h4, .inl h5, h6, h7, fun h h' => by rw [h9]; exact h (h8 ▸ h')⟩
  rintro t ⟨h2, h3, h4, h5, h6, h7, h8, h9⟩
  have hp : SessionOnly t (resetPulse t) := ⟨by simp, by simp, by simp, by simp, by simp⟩
  have hopen : ∀ u, FramerOnly (resetPulse t) u → FirstOpens s u := by
    intro u hu
    obtain ⟨ev, e1⟩ := h3
    obtain ⟨ev', e2, _⟩ := hu.trace
    exact ⟨_, by rw [e2, resetPulse_trace, e1, List.append_assoc, List.append_assoc, List.cons_append]⟩
  refine Run.Sat.andThen (G' := fun u => FramerOnly (resetPulse t) u ∧ u.fault = t.fault ∧ u.bitOffset = 0 ∧
      ((t.bitOffset = 0 → t.previousSymbol = 0x00#8) → u.previousSymbol = 0x00#8)) ?_ ?_
  · have hw := runThenFlush_work (powerUpScript t.params) (resetPulse t)
    have hb := runThenFlush_bitOffset (powerUpScript t.params) (resetPulse t)
    cases hr : runThenFlush (powerUpScript t.params) (resetPulse t) with
    | going u =>
      rw [hr] at hw hb
      obtain ⟨w1, w2, w3⟩ := hw
      exact ⟨w1, w2, hb, fun h => w3 h hb⟩
    | raised c u =>
      rw [hr] at hw
      obtain ⟨rfl, w1, w2, w3, w4⟩ := hw
      exact ⟨rfl, (h2.trans hp).trans w1.session, hopen u w1, fun _ => by rw [w1.busOpen]; exact h4,
        .inr ⟨w1.pinState, by rw [w1.busOpen]; exact h4⟩, by rw [w1.lifecycle]; exact h6, w2, w3, w4⟩
    | stuck u =>
      rw [hr] at hw
      obtain ⟨w1, w2, w3⟩ := hw
      exact ⟨(h2.trans hp).trans w1.session, hopen u w1, fun _ => by rw [w1.busOpen]; exact h4,
        .inr ⟨w1.pinState, by rw [w1.busOpen]; exact h4⟩, by rw [w1.lifecycle]; exact h6,
        w2.trans h7, fun _ => w3⟩
  · rintro u ⟨w1, w2, w3, w4⟩
    have hs := (h2.trans hp).trans w1.session
    exact ⟨⟨hs.params, hs.statuses, hs.requests, hs.hung, hs.trace⟩, hopen u w1, by
      show u.busOpen = true; rw [w1.busOpen]; exact h4, w1.pinState, rfl, w2.trans h7, w3,
      fun h => w4 (fun h' => by rw [h9]; exact h (h8 ▸ h'))⟩

/-- Everything steps 1 to 3 of CLOSE can do. -/
theorem release_sat (s : State) :
    (release s).Sat
      (fun t => SessionOnly s t ∧ t.busOpen = false ∧ t.pinState = .unconfigured ∧ t.lifecycle = .closed ∧
        t.fault = s.fault ∧ t.bitOffset = s.bitOffset ∧ t.previousSymbol = s.previousSymbol)
      (fun c t => c = .transportFailure ∧ SessionOnly s t ∧ t.busOpen = false ∧ t.pinState = .unconfigured ∧
        t.lifecycle = .closed ∧ t.fault = true ∧ t.bitOffset = 0 ∧ t.previousSymbol = 0x00#8)
      (fun t => SessionOnly s t ∧ t.busOpen = s.busOpen ∧ t.pinState = .unconfigured ∧ t.lifecycle = s.lifecycle ∧
        t.fault = s.fault ∧ t.bitOffset = s.bitOffset ∧ t.previousSymbol = s.previousSymbol) := by
  unfold release
  refine Run.Sat.onReturn (G' := fun t => t = (State.emit _ _).useAnswer)
    (R' := fun c t => c = .transportFailure ∧ t = (State.emit _ _).useAnswer.failed)
    ((transport_sat _ _).mono (fun _ h => h) (fun _ _ h => h) ?_) ?_ ?_
  · rintro t rfl
    exact ⟨⟨by simp, by simp, by simp, by simp, by simp⟩, by simp⟩
  · rintro t rfl
    exact ⟨⟨by simp, by simp, by simp, by simp, by simp⟩, by simp⟩
  · rintro c t ⟨rfl, rfl⟩
    exact ⟨rfl, ⟨by simp, by simp, by simp, by simp, by simp⟩, by simp⟩

end Sys2Proof.Machine
end

