-- ==== Sys2Proof/Laws/Framer.lean ====
section
/-! SUPPORT. SUBMIT and scripts over the symbols the framer holds: what each stores, sends and leaves. -/

namespace Sys2Proof.Machine

/-- The byte of the last held symbol is what SUBMIT merges at the next position. -/
theorem State.Holds.transportByte_previous {s : State} {held : List Symbol} (h : s.Holds held) (y : Symbol) :
    transportByte held.length s.previousSymbol y =
      transportByte held.length
        (if h0 : held.length = 0 then 0 else (held[held.length - 1]'(by omega)).data) y := by
  rw [h.2.2.1]
  split
  · next h0 =>
    rw [List.length_eq_zero_iff.1 h0]
    rfl
  · next h0 =>
    rw [List.getLast?_eq_getElem?, List.getElem?_eq_getElem (by omega)]
    rfl

/-- The stored bytes of held symbols, one by one. -/
theorem State.holds_iff (s : State) (held : List Symbol) :
    s.Holds held ↔
      held.length < 8 ∧ s.bitOffset.val = held.length ∧
      s.previousSymbol = (held.getLast?.map Symbol.data).getD 0x00#8 ∧
      ∀ j (hj : j < held.length),
        s.frameBuffer[j]? = some (transportByte j (if j = 0 then 0 else held[j - 1].data) held[j]) := by
  have key : ∀ (h1 : held.length < 8) (j : Nat) (hj : j < held.length),
      (frameOf (held ++ List.replicate (8 - held.length) ⟨.command, 0x00#8⟩))[j] =
        transportByte j (if j = 0 then 0 else held[j - 1].data) held[j] := by
    intro h1 j hj
    rw [frameOf_getElem (by simp; omega) j (by omega)]
    congr 1
    · split
      · rfl
      · rw [List.getElem_append_left (by omega)]
    · rw [List.getElem_append_left (by omega)]
  constructor
  · rintro ⟨h1, h2, h3, h4⟩
    refine ⟨h1, h2, h3, fun j hj => ?_⟩
    rw [Vector.getElem?_eq_getElem (by omega), h4 ⟨j, by omega⟩ hj, key h1]
  · rintro ⟨h1, h2, h3, h4⟩
    refine ⟨h1, h2, h3, fun j hj => ?_⟩
    have := h4 j.val hj
    rw [Vector.getElem?_eq_getElem (by omega)] at this
    rw [Option.some.inj this, key h1]

/-- At a frame boundary nothing is held (10_state.md R40). -/
theorem State.holds_nil_iff (s : State) : s.Holds [] ↔ s.AtBoundary := by
  rw [State.holds_iff]
  simp

/-- SUBMIT of a symbol that is not the eighth: it is held after the others. -/
theorem submitSymbol_holds {s : State} {held : List Symbol} (h : s.Holds held) (y : Symbol)
    (h7 : held.length < 7) :
    ∃ b k, submitSymbol y s = .going { s with frameBuffer := b, previousSymbol := y.data, bitOffset := k } ∧
      State.Holds { s with frameBuffer := b, previousSymbol := y.data, bitOffset := k } (held ++ [y]) := by
  have hp := h.transportByte_previous y
  obtain ⟨h1, h2, h3, h4⟩ := (State.holds_iff s held).1 h
  refine ⟨_, _, submitSymbol_of_lt y (by omega), (State.holds_iff _ _).2 ⟨by simp; omega, ?_, by simp, ?_⟩⟩
  · have : s.bitOffset.val + 1 < 8 := by omega
    simp [Fin.val_add, h2]
    omega
  · intro j hj
    simp at hj
    by_cases e : j = held.length
    · subst e
      simp only [h2, hp]
      rw [Vector.getElem?_eq_getElem (by omega), Vector.getElem_set_self]
      congr 2
      · split
        · rfl
        · rw [List.getElem_append_left (by omega)]
      · simp
    · have hj' : j < held.length := by omega
      simp only
      rw [Vector.getElem?_set_ne (h := by omega), h4 j hj']
      congr 2
      · split
        · rfl
        · rw [List.getElem_append_left (by omega)]
      · rw [List.getElem_append_left (by omega)]

/-- The frame that the eighth symbol completes is the 72-bit frame of the eight (20_memory.md R54). -/
theorem State.full_frameBuffer {s : State} {held : List Symbol} (h : s.Holds held) (y : Symbol)
    (h7 : held.length = 7) : (s.full y).frameBuffer = frameOf (held ++ [y]) := by
  have hp := h.transportByte_previous y
  obtain ⟨h1, h2, h3, h4⟩ := (State.holds_iff s held).1 h
  have hl : (held ++ [y]).length = 8 := by simp; omega
  apply Vector.ext
  intro j hj
  by_cases e8 : j = 8
  · subst e8
    simp only [frameOf_last hl]
    simp [State.full, h7]
  rw [frameOf_getElem hl j (by omega)]
  by_cases e : j = 7
  · subst e
    have hp' : transportByte 7 s.previousSymbol y = transportByte 7 (held[6]'(by omega)).data y := by
      rw [dif_neg (by omega)] at hp
      simpa only [h7] using hp
    simp only [State.full, hp']
    rw [Vector.getElem_set_ne _ _ (by omega), Vector.getElem_set_self]
    congr 1
    · rw [if_neg (by omega), List.getElem_append_left (by omega)]
    · simp [h7]
  · have := h4 j (by omega)
    rw [Vector.getElem?_eq_getElem (by omega)] at this
    simp only [State.full]
    rw [Vector.getElem_set_ne _ _ (by omega), Vector.getElem_set_ne _ _ (by omega), Option.some.inj this]
    congr 1
    · split
      · rfl
      · rw [List.getElem_append_left (by omega)]
    · rw [List.getElem_append_left (by omega)]

/-- SUBMIT of the eighth symbol when the transfer succeeds. -/
theorem submitSymbol_eighth_success {s : State} {held : List Symbol} (h : s.Holds held) (y : Symbol)
    (h7 : held.length = 7) {rest : List Answer} (ha : s.answers = .success :: rest) :
    submitSymbol y s = .going
      { s with
        frameBuffer := frameOf (held ++ [y]), previousSymbol := 0x00#8, bitOffset := 0
        trace := s.trace ++ [.busTransfer (frameOf (held ++ [y]))], answers := rest } := by
  rw [submitSymbol_of_seven y (Fin.ext (by rw [h.2.1]; exact h7)),
    transport_of_success (rest := rest) (by simpa [State.full] using ha)]
  simp [State.full_frameBuffer h y h7, State.toBoundary]
  simp [State.full]

/-- SUBMIT of the eighth symbol when the transfer fails. -/
theorem submitSymbol_eighth_failure {s : State} {held : List Symbol} (h : s.Holds held) (y : Symbol)
    (h7 : held.length = 7) {rest : List Answer} (ha : s.answers = .failure :: rest) :
    submitSymbol y s = .raised .transportFailure
      { s with
        frameBuffer := frameOf (held ++ [y]), previousSymbol := 0x00#8, bitOffset := 0, fault := true
        trace := s.trace ++ [.busTransfer (frameOf (held ++ [y]))], answers := rest } := by
  rw [submitSymbol_of_seven y (Fin.ext (by rw [h.2.1]; exact h7)),
    transport_of_failure (rest := rest) (by simpa [State.full] using ha), State.full_frameBuffer h y h7]
  simp [State.full]

/-- `k = 0` is a frame boundary as far as SUBMIT is concerned: `prev` is not looked at (40_framer.md R111). -/
theorem submitSymbol_toBoundary {s : State} (y : Symbol) (h : s.bitOffset = 0) :
    submitSymbol y s = submitSymbol y s.toBoundary := by
  rw [submitSymbol_of_lt y (by simp [h]), submitSymbol_of_lt y (by simp)]
  simp only [State.toBoundary, h]
  simp [transportByte_zero s.previousSymbol y]

/-- A script in two parts. -/
theorem runScript_append (a b : List Item) (s : State) :
    runScript (a ++ b) s = (runScript a s).andThen (runScript b) := by
  induction a generalizing s with
  | nil => rfl
  | cons i a ih =>
    simp only [List.cons_append, runScript, Run.andThen_assoc]
    congr 1
    funext t
    exact ih t

/-! ### Answers and events -/

/-- The first of the next `n + 1` answers that are successes. -/
theorem State.Answered.cons {s : State} {n : Nat} (h : s.Answered (n + 1)) :
    ∃ rest, s.answers = .success :: rest ∧ rest.take n = List.replicate n .success := by
  unfold State.Answered at h
  cases hs : s.answers with
  | nil => simp [hs] at h
  | cons a r =>
    simp [hs, List.replicate_succ] at h
    exact ⟨r, by rw [h.1], h.2⟩

theorem countP_delay (t : Delay) (ev : List Event) :
    (Event.delay t :: ev).countP Event.isTransfer = ev.countP Event.isTransfer := by
  simp [Event.isTransfer]

theorem countP_busTransfer (b : Frame) (ev : List Event) :
    (Event.busTransfer b :: ev).countP Event.isTransfer = ev.countP Event.isTransfer + 1 :=
  List.countP_cons_of_pos rfl

/-- After a transfer the frame buffer is what was sent, whatever it held before. -/
theorem lastFrame_append_busTransfer (old b : Frame) (ev : List Event) :
    lastFrame old (ev ++ [.busTransfer b]) = b := by
  induction ev generalizing old with
  | nil => rfl
  | cons e ev ih => cases e <;> exact ih _

/-- Where held symbols have all been sent, the frame buffer does not depend on what it held before. -/
theorem lastFrame_cutScript {held : List Symbol} {script : List Item} (hne : held ≠ [])
    (h : (cutScript held script).2 = []) (x y : Frame) :
    lastFrame x (cutScript held script).1 = lastFrame y (cutScript held script).1 := by
  induction script generalizing held with
  | nil => exact absurd h hne
  | cons i rest ih =>
    cases i with
    | wait t => exact ih hne h
    | sym z =>
      simp only [cutScript] at h ⊢
      split
      · rfl
      · next h7 =>
        rw [if_neg h7] at h
        exact ih (by simp) h

theorem throughTransfer_delay (n : Nat) (t : Delay) (ev : List Event) :
    throughTransfer n (.delay t :: ev) = .delay t :: throughTransfer n ev := rfl

theorem throughTransfer_zero (b : Frame) (ev : List Event) :
    throughTransfer 0 (.busTransfer b :: ev) = [.busTransfer b] := rfl

theorem throughTransfer_succ (n : Nat) (b : Frame) (ev : List Event) :
    throughTransfer (n + 1) (.busTransfer b :: ev) = .busTransfer b :: throughTransfer n ev := rfl

/-- A transfer of the first part is reached within the first part. -/
theorem throughTransfer_append_of_lt {n : Nat} {ev : List Event} (h : n < ev.countP Event.isTransfer)
    (ev' : List Event) : throughTransfer n (ev ++ ev') = throughTransfer n ev := by
  induction ev generalizing n with
  | nil => simp at h
  | cons e ev ih =>
    simp only [List.cons_append, throughTransfer]
    split
    · next he =>
      rw [List.countP_cons_of_pos he] at h
      cases n with
      | zero => rfl
      | succ n => simp only [ih (Nat.lt_of_succ_lt_succ h)]
    · next he => rw [ih (by rwa [List.countP_cons_of_neg he] at h)]

/-- The transfer right after a part that makes `n` is number `n`. -/
theorem throughTransfer_append_busTransfer (ev : List Event) (b : Frame) :
    throughTransfer (ev.countP Event.isTransfer) (ev ++ [.busTransfer b]) = ev ++ [.busTransfer b] := by
  induction ev with
  | nil => rfl
  | cons e ev ih =>
    simp only [List.cons_append, throughTransfer]
    split
    · next he => simp only [List.countP_cons_of_pos he, ih]
    · next he => rw [List.countP_cons_of_neg he, ih]

/-- Up to a transfer there is a transfer, so the buffer does not depend on what it held before. -/
theorem lastFrame_throughTransfer {n : Nat} {ev : List Event} (h : n < ev.countP Event.isTransfer) (x y : Frame) :
    lastFrame x (throughTransfer n ev) = lastFrame y (throughTransfer n ev) := by
  induction ev generalizing n x y with
  | nil => simp at h
  | cons e ev ih =>
    cases e <;> try exact ih h x y
    next b =>
      rw [countP_busTransfer] at h
      cases n with
      | zero => rfl
      | succ n => exact ih (Nat.lt_of_succ_lt_succ h) b b

/-- Running a script from any held symbols, every transfer answered success: the events are those of cutting the stream
into frames, and what waits at the end is held (20_memory.md R65; 42_session.md R144). -/
theorem runScript_holds (script : List Item) :
    ∀ (s : State) (held : List Symbol), s.Holds held →
      s.Answered ((cutScript held script).1.countP Event.isTransfer) →
      ∃ b p k,
        let t : State :=
          { s with
            frameBuffer := b, previousSymbol := p, bitOffset := k, trace := s.trace ++ (cutScript held script).1
            answers := s.answers.drop ((cutScript held script).1.countP Event.isTransfer) }
        runScript script s = .going t ∧ t.Holds (cutScript held script).2 ∧
        ((cutScript held script).2 = [] → b = lastFrame s.frameBuffer (cutScript held script).1) := by
  induction script with
  | nil =>
    intro s held h _
    exact ⟨s.frameBuffer, s.previousSymbol, s.bitOffset, by simp [runScript, cutScript],
      by simpa only [cutScript, List.append_nil, List.countP_nil, List.drop_zero] using h, fun _ => rfl⟩
  | cons i rest ih =>
    intro s held h ha
    cases i with
    | wait t =>
      obtain ⟨b, p, k, e, w, l⟩ := ih (s.emit (.delay t)) held h (by rw [cutScript, countP_delay] at ha; exact ha)
      refine ⟨b, p, k, ?_, ?_, l⟩
      · simp only [runScript, runItem, Run.going_andThen, e]
        simp [cutScript, State.emit, Event.isTransfer]
      · simpa only [cutScript, State.emit, countP_delay, List.append_assoc, List.singleton_append] using w
    | sym y =>
      by_cases h7 : held.length = 7
      · simp only [cutScript, h7, if_true] at ha ⊢
        obtain ⟨ar, e1, e2⟩ := State.Answered.cons (n := (cutScript [] rest).1.countP Event.isTransfer)
          (by rw [countP_busTransfer] at ha; exact ha)
        obtain ⟨b, p, k, e, w, l⟩ := ih
          { s with
            frameBuffer := frameOf (held ++ [y]), previousSymbol := 0x00#8, bitOffset := 0
            trace := s.trace ++ [.busTransfer (frameOf (held ++ [y]))], answers := ar } []
          ((State.holds_nil_iff _).2 ⟨rfl, rfl⟩) e2
        refine ⟨b, p, k, ?_, ?_, l⟩
        · simp only [runScript, runItem, submitSymbol_eighth_success h y h7 e1, Run.going_andThen, e]
          simp only [countP_busTransfer, e1, List.drop_succ_cons, List.append_assoc, List.singleton_append]
        · simpa only [countP_busTransfer, e1, List.drop_succ_cons, List.append_assoc, List.singleton_append] using w
      · simp only [cutScript, h7, if_false] at ha ⊢
        obtain ⟨b', k', es, ws⟩ := submitSymbol_holds h y (by have := h.1; omega)
        obtain ⟨b, p, k, e, w, l⟩ := ih _ _ ws ha
        refine ⟨b, p, k, by simp only [runScript, runItem, es, Run.going_andThen, e], w, fun hz => ?_⟩
        rw [l hz]
        exact lastFrame_cutScript (by simp) hz _ _

/-- Running a script from any held symbols when its transfer number `n` fails: the events up to it stand, and the framer
is at a boundary with the fault marked (60_exceptions.md R197). -/
theorem runScript_fails (script : List Item) :
    ∀ (s : State) (held : List Symbol) (n : Nat) (rest : List Answer), s.Holds held →
      n < (cutScript held script).1.countP Event.isTransfer →
      s.answers = List.replicate n .success ++ .failure :: rest →
      runScript script s = .raised .transportFailure
        { s with
          frameBuffer := lastFrame s.frameBuffer (throughTransfer n (cutScript held script).1), bitOffset := 0
          previousSymbol := 0x00#8, fault := true
          trace := s.trace ++ throughTransfer n (cutScript held script).1, answers := rest } := by
  induction script with
  | nil => intro s held n rest _ hn; simp [cutScript] at hn
  | cons i script ih =>
    intro s held n rest h hn ha
    cases i with
    | wait t =>
      rw [cutScript, countP_delay] at hn
      simp only [runScript, runItem, Run.going_andThen, ih (s.emit (.delay t)) held n rest h hn ha]
      simp only [cutScript, throughTransfer_delay, lastFrame, State.emit, List.append_assoc, List.singleton_append]
    | sym y =>
      by_cases h7 : held.length = 7
      · simp only [cutScript, h7, if_true, countP_busTransfer] at hn ⊢
        cases n with
        | zero =>
          simp only [runScript, runItem, submitSymbol_eighth_failure h y h7 (rest := rest) ha, Run.raised_andThen,
            throughTransfer_zero, lastFrame]
        | succ n =>
          have es := submitSymbol_eighth_success h y h7 (rest := List.replicate n .success ++ .failure :: rest)
            (by rw [ha, List.replicate_succ, List.cons_append])
          simp only [runScript, runItem, es, Run.going_andThen]
          rw [ih _ [] n rest ((State.holds_nil_iff _).2 ⟨rfl, rfl⟩) (Nat.lt_of_succ_lt_succ hn) rfl]
          simp only [throughTransfer_succ, lastFrame, List.append_assoc, List.singleton_append]
      · simp only [cutScript, h7, if_false] at hn ⊢
        obtain ⟨b, k, es, ws⟩ := submitSymbol_holds h y (by have := h.1; omega)
        simp only [runScript, runItem, es, Run.going_andThen, ih _ _ n rest ws hn ha]
        rw [lastFrame_throughTransfer hn b s.frameBuffer]

end Sys2Proof.Machine
end

