-- ==== Sys2Proof/Laws/PerInstr.lean ====
section
/-! SUPPORT. A statement about every instruction, one lemma per constructor. -/

namespace Sys2Proof.Laws.OpField

/-- Bits 12:9 of an instruction's word are its operation code, and that code is one of the eleven that select an
operation (30_encoding.md R86, R87). -/
def Statement (i : Instr) : Prop := (encode i).op = i.opCode ∧ i.opCode.toNat < 0xB

theorem op_encode (i : Instr) : (encode i).op = i.opCode := by
  show (i.opCode ++ i.lowBits).extractLsb' 9 4 = i.opCode
  apply BitVec.eq_of_getLsbD_eq
  intro j hj
  simp only [BitVec.getLsbD_extractLsb', BitVec.getLsbD_append, hj, decide_true, Bool.true_and,
    show ¬ 9 + j < 9 by omega, if_false, Nat.add_sub_cancel_left]

theorem submit (f : Flag) (d : Byte) : Statement (.submit f d) := ⟨op_encode _, show (0x0#4).toNat < 0xB by decide⟩
theorem flush : Statement .flush := ⟨op_encode _, by decide⟩
theorem initializeSession : Statement .initializeSession := ⟨op_encode _, by decide⟩
theorem display (raster : List Byte) : Statement (.display raster) := ⟨op_encode _, show (0x3#4).toNat < 0xB by decide⟩
theorem turnOff : Statement .turnOff := ⟨op_encode _, by decide⟩
theorem turnOn : Statement .turnOn := ⟨op_encode _, by decide⟩
theorem rotateNone : Statement .rotateNone := ⟨op_encode _, by decide⟩
theorem rotate180 : Statement .rotate180 := ⟨op_encode _, by decide⟩
theorem rotate90cw : Statement .rotate90cw := ⟨op_encode _, by decide⟩
theorem rotate90ccw : Statement .rotate90ccw := ⟨op_encode _, by decide⟩
theorem close : Statement .close := ⟨op_encode _, by decide⟩
theorem phNop : Statement .phNop := ⟨op_encode _, by decide⟩
theorem epNop : Statement .epNop := ⟨op_encode _, by decide⟩
theorem epDisoff : Statement .epDisoff := ⟨op_encode _, by decide⟩
theorem epSlpin : Statement .epSlpin := ⟨op_encode _, by decide⟩
theorem phRotNone : Statement .phRotNone := ⟨op_encode _, by decide⟩
theorem phRot180 : Statement .phRot180 := ⟨op_encode _, by decide⟩
theorem phRot90cw : Statement .phRot90cw := ⟨op_encode _, by decide⟩
theorem phRot90ccw : Statement .phRot90ccw := ⟨op_encode _, by decide⟩
theorem addrLow : Statement .addrLow := ⟨op_encode _, by decide⟩
theorem addrHigh : Statement .addrHigh := ⟨op_encode _, by decide⟩
theorem epDisctlLines : Statement .epDisctlLines := ⟨op_encode _, by decide⟩

end Sys2Proof.Laws.OpField
end

