-- ==== Sys2Proof/Laws/Step.lean ====
section
/-! SUPPORT. What a step can do, and what every next state of `exec` has in common, said once. -/

namespace Sys2Proof.Machine

/-- A step that answers a next state waited, ran the oldest request, or answered it IllegalOp. -/
theorem step_cases {s t : State} (h : step s = .next t) :
    s.hung = false ∧
      ((s.requests = [] ∧ t = s) ∨
        ∃ r rest, s.requests = r :: rest ∧
          ((∃ i, decode r = .instr i ∧ exec i s.takeRequest = .next t) ∨
            ((∃ op, decode r = .illegalOp op) ∧ t = s.takeRequest.report .illegalOp))) := by
  unfold step at h
  split at h
  · cases h
  · next hh =>
    refine ⟨by simpa using hh, ?_⟩
    split at h
    · next hr => exact .inl ⟨hr, (Host.Outcome.next.inj h).symm⟩
    · next r rest hr =>
      refine .inr ⟨r, rest, hr, ?_⟩
      unfold runDecoded at h
      split at h
      · next i hd => exact .inl ⟨i, hd, h⟩
      · next op hd => exact .inr ⟨⟨op, hd⟩, (Host.Outcome.next.inj h).symm⟩

/-- How an instruction that was not refused can end. -/
inductive Ended (i : Instr) (s t : State) : Prop where
  /-- It returned Ok. -/
  | ok (status : t.statuses = s.statuses ++ [.ok]) (fault : t.fault = s.fault) (hung : t.hung = s.hung)
      (lifecycle : t.lifecycle =
        (if i = .initializeSession then .operational else if i = .close then .closed else s.lifecycle))
      (boundary : i.isSequencer = true → i ≠ .close →
        t.bitOffset = 0 ∧ ((s.bitOffset = 0 → s.previousSymbol = 0x00#8) → t.previousSymbol = 0x00#8))
      (close : i = .close →
        s.lifecycle = .operational ∧ t.bitOffset = s.bitOffset ∧ t.previousSymbol = s.previousSymbol)
      (powerUp : i = .initializeSession → s.lifecycle ≠ .operational)
  /-- It returned TransportFailure. -/
  | failed (status : t.statuses = s.statuses ++ [.transportFailure]) (fault : t.fault = true) (hung : t.hung = s.hung)
      (boundary : t.AtBoundary) (lifecycle : t.lifecycle = (if i = .close then .closed else s.lifecycle))
      (close : i = .close → s.lifecycle = .operational)
  /-- It waits for a transport call for ever. -/
  | stuck (status : t.statuses = s.statuses) (fault : t.fault = s.fault) (hung : t.hung = true)
      (lifecycle : t.lifecycle = s.lifecycle)

/-- Every next state of `exec`: the instruction was refused before it did anything, or it ended in one of three ways,
with the parameters and the waiting requests as they were and the trace longer or equal. -/
theorem exec_cases {i : Instr} {s t : State} (h : exec i s = .next t) :
    (∃ c, Refuses i s c ∧ t = s.report c) ∨
      (t.params = s.params ∧ t.requests = s.requests ∧ s.trace <+: t.trace ∧ Ended i s t) := by
  cases exec_kind h with
  | refused c hc ht => exact .inl ⟨c, hc, ht⟩
  | framer h1 h2 h3 h4 r hr hk ht =>
    right
    subst ht
    cases r with
    | going u =>
      obtain ⟨w, f, b⟩ := hr
      exact ⟨w.params, w.requests, w.session.trace, .ok (by simp [w.statuses]) f w.hung (by simp [h1, h2, w.lifecycle])
        (fun a _ => ⟨hk a, fun h => b h (hk a)⟩) (fun a => absurd a h2) (fun a => absurd a h1)⟩
    | raised c u =>
      obtain ⟨rfl, w, f, b⟩ := hr
      exact ⟨w.params, w.requests, w.session.trace, .failed (by simp [w.statuses]) f w.hung b
        (by simp [h2, w.lifecycle]) (fun a => absurd a h2)⟩
    | stuck u =>
      obtain ⟨w, f, b⟩ := hr
      exact ⟨w.params, w.requests, w.session.trace, .stuck (by simp [w.statuses]) f rfl w.lifecycle⟩
  | powerUp hi hs ht =>
    right
    subst ht hi
    have := powerUp_sat s
    cases hr : powerUp s <;> rw [hr] at this
    · obtain ⟨w, o, a, b, c, d, e, f⟩ := this
      exact ⟨w.params, w.requests, w.trace, .ok (by simp [w.statuses]) d w.hung c (fun _ _ => ⟨e, f⟩) (by simp)
        (fun _ => hs)⟩
    · obtain ⟨rfl, w, o, a, b, c, d, e, f⟩ := this
      exact ⟨w.params, w.requests, w.trace, .failed (by simp [w.statuses]) d w.hung ⟨e, f⟩ c (by simp)⟩
    · obtain ⟨w, o, a, b, c, d, f⟩ := this
      exact ⟨w.params, w.requests, w.trace, .stuck (by simp [w.statuses]) d rfl c⟩
  | release hi hs ht =>
    right
    subst ht hi
    have := release_sat s
    cases hr : release s <;> rw [hr] at this
    · obtain ⟨w, a, b, c, d, e, f⟩ := this
      exact ⟨w.params, w.requests, w.trace, .ok (by simp [w.statuses]) d w.hung c (by simp) (fun _ => ⟨hs, e, f⟩)
        (by simp)⟩
    · obtain ⟨rfl, w, a, b, c, d, e, f⟩ := this
      exact ⟨w.params, w.requests, w.trace, .failed (by simp [w.statuses]) d w.hung ⟨e, f⟩ c (fun _ => hs)⟩
    · obtain ⟨w, a, b, c, d, e, f⟩ := this
      exact ⟨w.params, w.requests, w.trace, .stuck (by simp [w.statuses]) d rfl c⟩

end Sys2Proof.Machine
end

