-- ==== Sys2Proof/Tests/Slice0.lean ====
section
/-! SUPPORT. Tests of the model on the vectors of spec/95_test_vectors.md, and a witness for the hypotheses of each
statement. The register maps are test values: those of 95_test_vectors.md 2.6, and arbitrary bytes where it names
none. -/

namespace Sys2Proof.Tests

open Sys2Proof.Machine

/-! ### Small states -/

/-- The Philips test map (95_test_vectors.md 2.6, [G2]). -/
def philipsMap : PhilipsMap where
  sleepout := 0x11#8
  bstron := 0x03#8
  invoff := 0x20#8
  colmod := 0x3A#8
  colmod12bit := 0x03#8
  madctl := 0x36#8
  madctlInit := 0xC0#8
  setcon := 0x25#8
  contrast := 0x30#8
  dispon := 0x29#8
  dispoff := 0x28#8
  sleepin := 0x10#8
  caset := 0x2A#8
  paset := 0x2B#8
  ramwr := 0x2C#8

/-- The Epson test map (95_test_vectors.md 2.6, [G2]). -/
def epsonMap : EpsonMap where
  disctl := 0xCA#8
  disctlP1 := 0x00#8
  disctlP3 := 0x00#8
  comscn := 0xBB#8
  comscnP1 := 0x01#8
  oscon := 0xD1#8
  slpout := 0x94#8
  pwrctr := 0x20#8
  pwrctrP1 := 0x0F#8
  disnor := 0xA6#8
  datctl := 0xBC#8
  datctlP1 := 0x00#8
  datctlP2 := 0x00#8
  datctlP3 := 0x02#8
  volctr := 0x81#8
  volP1 := 0x20#8
  volP2 := 0x03#8
  dison := 0xAF#8
  caset := 0x15#8
  paset := 0x75#8
  ramwr := 0x5C#8

/-- Test parameters: reset line 7, chip select 0, 6 MHz, bus 1, and the suggested EP_ON_SCRIPT of
43_display_power_rotate.md R170. -/
def params (f : Family) : Params :=
  ⟨f, 7, 0, 6, 1, philipsMap, epsonMap, ⟨0x94#8, [⟨.command, 0x20#8⟩, ⟨.data, 0x0F#8⟩]⟩⟩

/-- A session just constructed, whose transport answers as listed. -/
def fresh (f : Family) (answers : List Answer) : State :=
  { State.construct (params f) with answers := answers }

/-- An Operational session at a frame boundary. -/
def ready (f : Family) (answers : List Answer) : State :=
  { fresh f answers with lifecycle := .operational, busOpen := true, pinState := .outHigh }

/-- A closed session. -/
def closed (f : Family) : State := { fresh f [] with lifecycle := .closed }

/-- A session whose framer holds `k` data symbols FF, `k` in 1..7 (95_test_vectors.md 2.3). -/
def holding (f : Family) (k : Fin 8) (answers : List Answer) : State :=
  { fresh f answers with
    bitOffset := k, previousSymbol := 0xFF#8
    frameBuffer := Vector.ofFn fun j => if j.val < k.val then 0xFF#8 else 0x00#8 }

/-- The outcome is a next state of which `p` holds. -/
def gives (o : Host.Outcome State Fault Refusal) (p : State → Bool) : Bool :=
  match o with
  | .next t => p t
  | .fault _ => false
  | .refused _ => false

/-- The symbols of a list, submitted one after the other. -/
def submitAll : List Symbol → State → Run
  | [], s => .going s
  | y :: rest, s => (submitSymbol y s).andThen (submitAll rest)

/-- `C xx`. -/
def c (d : Byte) : Symbol := ⟨.command, d⟩

/-- `D xx`. -/
def d (x : Byte) : Symbol := ⟨.data, x⟩

/-! ### Well-formedness -/

theorem test_wf_refuses_named_submit : (Instr.submit .command 0x25#8).wf = false := by decide
theorem test_wf_refuses_short_raster : (Instr.display [0x00#8]).wf = false := by decide
theorem test_wf_refuses_zero_clock : Params.wf { params .philips with clockMhz := 0 } = false := by decide
theorem test_wf_accepts : (Instr.submit .data 0x25#8).wf = true ∧ (params .epson).wf = true := by decide
theorem test_wf_accepts_raster : (Instr.display (List.replicate 52272 0x00#8)).wf = true := by
  show ((List.replicate 52272 0x00#8).length == 52272) = true
  rw [List.length_replicate]
  rfl

/-! ### Decoding: words written out from spec/opcode_table.json -/

/-- The OP13 rows, with ignored bits set in some. -/
theorem test_decode_operations :
    decode ⟨0b0000001011100#13, []⟩ = .instr (.submit .command 0x5C#8) ∧
    decode ⟨0b0000100001111#13, []⟩ = .instr (.submit .data 0x0F#8) ∧
    decode ⟨0b0001000000000#13, []⟩ = .instr .flush ∧
    decode ⟨0b0010000000001#13, []⟩ = .instr .initializeSession ∧
    decode ⟨0b0011000000000#13, [0x12#8]⟩ = .instr (.display [0x12#8]) ∧
    decode ⟨0b0100000000000#13, []⟩ = .instr .turnOff ∧
    decode ⟨0b0101100000000#13, []⟩ = .instr .turnOn ∧
    decode ⟨0b0110001010101#13, []⟩ = .instr .rotateNone ∧
    decode ⟨0b0111000000000#13, []⟩ = .instr .rotate180 ∧
    decode ⟨0b1000000000000#13, []⟩ = .instr .rotate90cw ∧
    decode ⟨0b1001000000000#13, []⟩ = .instr .rotate90ccw ∧
    decode ⟨0b1010111111111#13, []⟩ = .instr .close ∧
    decode ⟨0b1011000000000#13, []⟩ = .illegalOp 0xB#4 ∧
    decode ⟨0b1111111111111#13, []⟩ = .illegalOp 0xF#4 := by decide

/-- The SYM9 rows. -/
theorem test_decode_symbols :
    decode ⟨0b0000000000000#13, []⟩ = .instr .phNop ∧
    decode ⟨0b0000000100101#13, []⟩ = .instr .epNop ∧
    decode ⟨0b0000010101110#13, []⟩ = .instr .epDisoff ∧
    decode ⟨0b0000010010101#13, []⟩ = .instr .epSlpin ∧
    decode ⟨0b0000100010000#13, []⟩ = .instr .phRotNone ∧
    decode ⟨0b0000111000000#13, []⟩ = .instr .phRot180 ∧
    decode ⟨0b0000101110000#13, []⟩ = .instr .phRot90cw ∧
    decode ⟨0b0000110110000#13, []⟩ = .instr .phRot90ccw ∧
    decode ⟨0b0000100000000#13, []⟩ = .instr .addrLow ∧
    decode ⟨0b0000110000011#13, []⟩ = .instr .addrHigh ∧
    decode ⟨0b0000100100000#13, []⟩ = .instr .epDisctlLines := by decide

/-- A word with a bit above bit 12 is no request. -/
theorem test_decodeTableWord_range : decodeTableWord 16 0x2000 = none ∧ decodeTableWord 16 0x1600 = none := by decide

/-- The first step after reset runs the word that withFetchWord places. -/
theorem test_fetch_runs :
    gives (step (State.reset.withFetchWord 16 0x0800)) (fun t => t.statuses == [.notInitialized]) = true := by decide

/-! ### The framer (95_test_vectors.md 2.1 to 2.4) -/

/-- 2.2, step 8, and the row of 2.1: the traced cycle. -/
theorem test_submit_traced_cycle :
    submitAll [d 0x12#8, d 0x34#8, d 0x56#8, d 0x78#8, d 0x9A#8, d 0xBC#8, d 0xDE#8, d 0xF0#8]
        (fresh .philips [.success]) =
      .going
        { fresh .philips [] with
          frameBuffer := #v[0x89#8, 0x4D#8, 0x2A#8, 0xD7#8, 0x8C#8, 0xD6#8, 0xF3#8, 0xBD#8, 0xF0#8]
          trace := [.busTransfer #v[0x89#8, 0x4D#8, 0x2A#8, 0xD7#8, 0x8C#8, 0xD6#8, 0xF3#8, 0xBD#8, 0xF0#8]] } := by
  decide

/-- 2.2: the single-position columns, `C A5` with prev 3C. -/
theorem test_submit_positions :
    (List.range 8).map (fun k => transportByte k 0x3C#8 (c 0xA5#8)) =
      [0x52#8, 0x29#8, 0x14#8, 0x8A#8, 0xC5#8, 0xE2#8, 0xF1#8, 0x78#8] := by decide

/-- 2.1: the corner of the shift by eight. -/
theorem test_submit_shift_by_eight :
    transportByte 7 0x00#8 (c 0xFF#8) = 0x00#8 ∧ transportByte 7 0x00#8 (d 0xFF#8) = 0x01#8 := by decide

/-- 2.3: FLUSH from k = 3 on an Epson session. -/
theorem test_flush_epson :
    gives (exec .flush (holding .epson 3 [.success])) (fun t =>
      t.trace == [.busTransfer #v[0xFF#8, 0xFF#8, 0xFF#8, 0xE2#8, 0x51#8, 0x28#8, 0x94#8, 0x4A#8, 0x25#8]] &&
      t.bitOffset == 0 && t.previousSymbol == 0x00#8) = true := by decide

/-- 2.3: FLUSH from k = 7 on a Philips session. -/
theorem test_flush_philips :
    gives (exec .flush (holding .philips 7 [.success])) (fun t =>
      t.trace == [.busTransfer #v[0xFF#8, 0xFF#8, 0xFF#8, 0xFF#8, 0xFF#8, 0xFF#8, 0xFF#8, 0xFE#8, 0x00#8]] &&
      t.statuses == [.ok]) = true := by decide

/-- 2.4: the ninth symbol writes only slot 0. -/
theorem test_submit_keeps_other_slots :
    gives (exec (.submit .data 0xA8#8)
        { fresh .philips [] with
          frameBuffer := #v[0xD0#8, 0x68#8, 0x74#8, 0x5A#8, 0x3D#8, 0x26#8, 0x97#8, 0x4D#8, 0xA7#8] })
      (fun t =>
        t.frameBuffer == #v[0xD4#8, 0x68#8, 0x74#8, 0x5A#8, 0x3D#8, 0x26#8, 0x97#8, 0x4D#8, 0xA7#8] &&
        t.bitOffset == 1 && t.previousSymbol == 0xA8#8) = true := by decide

/-- 2.9: a frame whose every byte is different. -/
theorem test_decodeFrame :
    decodeFrame #v[0xDE#8, 0xAD#8, 0xBE#8, 0xEF#8, 0x01#8, 0x23#8, 0x45#8, 0x67#8, 0x89#8] =
      [d 0xBD#8, c 0xB6#8, d 0xF7#8, c 0xF0#8, c 0x24#8, c 0xD1#8, c 0xB3#8, d 0x89#8] := by decide

/-- The wire description gives the frame of 2.1, row 9. -/
theorem test_frameOf :
    frameOf [c 0x2A#8, d 0x00#8, d 0x83#8, c 0x2B#8, d 0x00#8, d 0x83#8, c 0x2C#8, d 0x00#8] =
      #v[0x15#8, 0x40#8, 0x30#8, 0x62#8, 0xB8#8, 0x06#8, 0x0C#8, 0x59#8, 0x00#8] := by decide

/-! ### The packer (95_test_vectors.md 2.5) -/

theorem test_pack :
    pack [] = [] ∧ pack [0xAB#8] = [0xA0#8] ∧ pack [0xAB#8, 0xCD#8] = [0xAC#8] ∧
    pack [0xAB#8, 0xCD#8, 0xEF#8] = [0xAC#8, 0xE0#8] ∧ pack [0xFF#8, 0x00#8, 0x0F#8, 0xF0#8] = [0xF0#8, 0x0F#8] ∧
    pack [0x12#8, 0x34#8, 0x56#8, 0x78#8, 0x9A#8, 0xBC#8] = [0x13#8, 0x57#8, 0x9B#8] := by decide

/-! ### The sequencer (95_test_vectors.md 2.6 to 2.8) -/

/-- The nine set-up events of 2.6 with the test parameters. -/
def setUp : List Event :=
  [.busOpen 1 0, .busSetMode 0, .busSetBitOrder .msbFirst, .busSetClock 6000000, .pinConfigOutput 7, .pinSet 7 .low,
   .delay .resetLow, .pinSet 7 .high, .delay .resetHigh]

/-- 2.6: Philips INITIALIZE. -/
theorem test_initialize_philips :
    gives (exec .initializeSession (fresh .philips (List.replicate 6 .success))) (fun t =>
      t.trace == setUp ++
        [.busTransfer #v[0x08#8, 0x80#8, 0xC4#8, 0x03#8, 0xA8#8, 0x18#8, 0xDB#8, 0x80#8, 0x25#8], .delay .phInit,
         .busTransfer #v[0x98#8, 0x0A#8, 0x40#8, 0x00#8, 0x00#8, 0x00#8, 0x00#8, 0x00#8, 0x00#8]] &&
      t.lifecycle == .operational && t.busOpen && t.pinState == .outHigh && t.statuses == [.ok]) = true := by decide

/-- 2.6: Epson INITIALIZE. -/
theorem test_initialize_epson :
    gives (exec .initializeSession (fresh .epson (List.replicate 7 .success))) (fun t =>
      t.trace == setUp ++
        [.busTransfer #v[0x65#8, 0x40#8, 0x24#8, 0x10#8, 0x05#8, 0xDC#8, 0x05#8, 0xA2#8, 0x94#8],
         .busTransfer #v[0x10#8, 0x43#8, 0xD4#8, 0xCB#8, 0xC8#8, 0x04#8, 0x02#8, 0x04#8, 0x81#8], .delay .epInit,
         .busTransfer #v[0x90#8, 0x40#8, 0xD5#8, 0xE2#8, 0x51#8, 0x28#8, 0x94#8, 0x4A#8, 0x25#8]] &&
      t.statuses == [.ok]) = true := by decide

/-- 2.8, third row: the first transfer of an Epson INITIALIZE fails. -/
theorem test_initialize_first_transfer_fails :
    gives (exec .initializeSession (fresh .epson (List.replicate 4 .success ++ [.failure]))) (fun t =>
      t.trace.length == 10 && t.lifecycle == .inert && t.busOpen && t.pinState == .outHigh && t.fault &&
      t.bitOffset == 0 && t.previousSymbol == 0x00#8 && t.statuses == [.transportFailure]) = true := by decide

/-- R169, R197: a TURN_ON whose one transfer fails has taken its delay and made the attempt. -/
theorem test_throughTransfer :
    throughTransfer 0 [.delay .phWake, .busTransfer #v[8, 128, 197, 32, 0, 0, 0, 0, 0], .delay .epWake] =
      [.delay .phWake, .busTransfer #v[8, 128, 197, 32, 0, 0, 0, 0, 0]] := by decide

/-- 1.2: the Epson turn-off frame. -/
theorem test_turnOff_epson :
    gives (exec .turnOff (ready .epson [.success])) (fun t =>
      t.trace == [.busTransfer #v[0x57#8, 0x25#8, 0x44#8, 0xA2#8, 0x51#8, 0x28#8, 0x94#8, 0x4A#8, 0x25#8]] &&
      t.bitOffset == 0 && t.lifecycle == .operational) = true := by decide

/-- 2.6: the Philips turn-off frame. -/
theorem test_turnOff_philips :
    gives (exec .turnOff (ready .philips [.success])) (fun t =>
      t.trace == [.busTransfer #v[0x14#8, 0x04#8, 0x00#8, 0x00#8, 0x00#8, 0x00#8, 0x00#8, 0x00#8, 0x00#8]]) = true := by
  decide

/-- 2.6: Philips TURN_ON. -/
theorem test_turnOn_philips :
    gives (exec .turnOn (ready .philips [.success])) (fun t =>
      t.trace == [.delay .phWake,
        .busTransfer #v[0x08#8, 0x80#8, 0xC5#8, 0x20#8, 0x00#8, 0x00#8, 0x00#8, 0x00#8, 0x00#8]]) = true := by decide

/-- 2.6: Epson TURN_ON. -/
theorem test_turnOn_epson :
    gives (exec .turnOn (ready .epson [.success])) (fun t =>
      t.trace == [.delay .epWake,
        .busTransfer #v[0x4A#8, 0x08#8, 0x21#8, 0xEA#8, 0xF1#8, 0x28#8, 0x94#8, 0x4A#8, 0x25#8]]) = true := by decide

/-- 2.6: the second byte of each rotation frame, with m = 36. -/
theorem test_rotations_philips :
    ([(Instr.rotateNone, 0x44#8), (.rotate180, 0x70#8), (.rotate90cw, 0x5C#8), (.rotate90ccw, 0x6C#8)].all fun p =>
      gives (exec p.1 (ready .philips [.success])) (fun t =>
        t.trace == [.busTransfer #v[0x1B#8, p.2, 0x00#8, 0x00#8, 0x00#8, 0x00#8, 0x00#8, 0x00#8, 0x00#8]])) = true := by
  decide

/-- 2.7: every rotation on an Epson session, in every lifecycle state. -/
theorem test_rotations_epson :
    ([fresh .epson [], ready .epson [.success], closed .epson].all fun s =>
      [Instr.rotateNone, .rotate180, .rotate90cw, .rotate90ccw].all fun i =>
        gives (exec i s) (fun t => t == s.report .unsupported)) = true := by decide

/-- 2.7: the other refusals. -/
theorem test_refusals :
    ([Instr.display [], .turnOff, .turnOn, .rotateNone, .rotate180, .rotate90cw, .rotate90ccw, .close].all fun i =>
      gives (exec i (fresh .philips [])) (fun t => t.statuses == [.notInitialized]) &&
      gives (exec i (closed .philips)) (fun t => t.statuses == [.alreadyClosed])) = true := by decide

/-- 2.7: INITIALIZE on an Operational session. -/
theorem test_initialize_again :
    gives (exec .initializeSession (ready .epson [])) (fun t => t.statuses == [.alreadyInitialized]) = true := by decide

/-- 2.6 and 2.8: CLOSE, and CLOSE whose bus close fails. -/
theorem test_close :
    gives (exec .close (ready .epson [.success])) (fun t =>
      t.trace == [.pinsReleased, .busClose] && t.lifecycle == .closed && !t.busOpen && t.pinState == .unconfigured &&
      t.statuses == [.ok]) = true ∧
    gives (exec .close (ready .philips [.failure])) (fun t =>
      t.trace == [.pinsReleased, .busClose] && t.lifecycle == .closed && !t.busOpen && t.fault &&
      t.statuses == [.transportFailure]) = true := by decide

/-- 2.6: the first frame of DISPLAY, all red, Philips; and Epson, all black. -/
theorem test_display_first_frame :
    (framesOf (displaySymbols (params .philips) [0xFF#8, 0x00#8])).head? =
      some #v[0x15#8, 0x40#8, 0x30#8, 0x62#8, 0xB8#8, 0x06#8, 0x0C#8, 0x59#8, 0xF0#8] ∧
    (framesOf (displaySymbols (params .epson) [0x00#8, 0x00#8])).head? =
      some #v[0x0A#8, 0xC0#8, 0x30#8, 0x67#8, 0x58#8, 0x06#8, 0x0C#8, 0xB9#8, 0x00#8] := by decide

/-- 2.6: an all-red raster's second frame, from the script itself with a short raster. -/
theorem test_display_second_frame :
    (match runThenFlush (displayScript (params .philips) (List.replicate 6 [0xFF#8, 0x00#8, 0x00#8]).flatten)
        (ready .philips (List.replicate 3 .success)) with
      | .going t => t.trace[1]?
      | .raised _ _ => none
      | .stuck _ => none) =
      some (.busTransfer #v[0x87#8, 0xC0#8, 0x3E#8, 0x10#8, 0xF8#8, 0x07#8, 0xC2#8, 0x1F#8, 0x00#8]) := by decide

/-- 2.8, fourth row: the third transfer fails. -/
theorem test_display_fails_midway :
    (match runThenFlush (displayScript (params .philips) (List.replicate 60 0x00#8))
        (ready .philips [.success, .success, .failure, .success]) with
      | .raised s t => s == .transportFailure && t.trace.length == 3 && t.fault && t.bitOffset == 0
      | .going _ => false
      | .stuck _ => false) = true := by decide

/-- 30_encoding.md R101: the named symbols at k = 0, by the first byte stored and prev. -/
theorem test_named_symbols :
    ([(Instr.phNop, 0x00#8, 0x00#8), (.epNop, 0x12#8, 0x25#8), (.epDisoff, 0x57#8, 0xAE#8), (.epSlpin, 0x4A#8, 0x95#8),
      (.phRotNone, 0x88#8, 0x10#8), (.phRot180, 0xE0#8, 0xC0#8), (.phRot90cw, 0xB8#8, 0x70#8),
      (.phRot90ccw, 0xD8#8, 0xB0#8), (.addrLow, 0x80#8, 0x00#8), (.addrHigh, 0xC1#8, 0x83#8),
      (.epDisctlLines, 0x90#8, 0x20#8)].all fun p =>
      gives (exec p.1 (fresh .epson [])) (fun t =>
        t.frameBuffer[0] == p.2.1 && t.previousSymbol == p.2.2 && t.bitOffset == 1)) = true := by decide

/-- P5, rows 1 and 2: an illegal request. -/
theorem test_illegal_op :
    gives (step { fresh .philips [] with requests := [⟨0x1FFF#13, []⟩] }) (fun t =>
      t == { fresh .philips [] with statuses := [.illegalOp] }) = true := by decide

/-! ### Witnesses for the hypotheses of the statements, at the ends of their ranges -/

/-- A session whose caller has issued the requests. -/
def issuing (s : State) (rs : List Request) : State := { s with requests := rs }

/-- The all-black raster has DISPLAY's length. -/
theorem raster_length : (List.replicate 52272 (0x00#8 : Byte)).length = 52272 := List.length_replicate

/-- Enough answers, all success. -/
theorem answered (f : Family) (n : Nat) : (ready f (List.replicate n .success)).Answered n := by
  show (List.replicate n Answer.success).take n = List.replicate n .success
  rw [List.take_replicate, Nat.min_self]

theorem reset_inv : State.reset.Inv := by decide

theorem witness_DecodeGivesBackEncodedInstruction :
    ∀ i ∈ [Instr.submit .command 0x01#8, .submit .command 0xFF#8, .submit .data 0x01#8, .submit .data 0xFF#8, .flush,
      .initializeSession, .turnOff, .turnOn, .rotateNone, .rotate180, .rotate90cw, .rotate90ccw, .close, .phNop, .epNop,
      .epDisoff, .epSlpin, .phRotNone, .phRot180, .phRot90cw, .phRot90ccw, .addrLow, .addrHigh, .epDisctlLines],
      i.wf = true := by decide

theorem witness_OpZeroWordActsAsSubmit : (0x000#13).toNat < 512 ∧ (0x1FF#13).toNat < 512 := by decide

theorem witness_OpFieldSelectsTheOperation :
    (0x0200#13).toNat / 512 = 0x1 ∧ (0x03FF#13).toNat / 512 = 0x1 ∧ (0x0400#13).toNat / 512 = 0x2 ∧
    (0x0600#13).toNat / 512 = 0x3 ∧ (0x0800#13).toNat / 512 = 0x4 ∧ (0x0A00#13).toNat / 512 = 0x5 ∧
    (0x0C00#13).toNat / 512 = 0x6 ∧ (0x0E00#13).toNat / 512 = 0x7 ∧ (0x1000#13).toNat / 512 = 0x8 ∧
    (0x1200#13).toNat / 512 = 0x9 ∧ (0x1400#13).toNat / 512 = 0xA ∧ (0x15FF#13).toNat / 512 = 0xA ∧
    0xB ≤ (0x1600#13).toNat / 512 ∧ 0xB ≤ (0x1FFF#13).toNat / 512 := by decide

theorem witness_StepRunsTheOldestRequest :
    let s := issuing (ready .epson [.success]) [⟨0x0800#13, []⟩, ⟨0x0200#13, []⟩]
    s.hung = false ∧ s.requests = ⟨0x0800#13, []⟩ :: [⟨0x0200#13, []⟩] ∧
      decode ⟨0x0800#13, []⟩ = .instr .turnOff := by decide

theorem witness_ReservedCodesAnswerIllegalOp :
    let s := issuing (fresh .philips []) [⟨0x1600#13, []⟩]
    let t := issuing (fresh .philips []) [⟨0x1FFF#13, [0x01#8]⟩]
    (s.hung = false ∧ s.requests = ⟨0x1600#13, []⟩ :: [] ∧ 0xB ≤ (0x1600#13).toNat / 512) ∧
      t.hung = false ∧ t.requests = ⟨0x1FFF#13, [0x01#8]⟩ :: [] ∧ 0xB ≤ (0x1FFF#13).toNat / 512 := by decide

theorem witness_StepWaitsOrIsStuck :
    State.reset.hung = false ∧ State.reset.requests = [] ∧ (State.hang (fresh .epson [])).hung = true := by decide

theorem witness_SubmitMidCycleStoresOneByte :
    (fresh .epson []).bitOffset.val < 7 ∧ (holding .epson 6 []).bitOffset.val < 7 := by decide

theorem witness_SubmitAtSevenSendsTheFrame :
    (holding .philips 7 [.success]).bitOffset = 7 ∧ (holding .philips 7 [.success]).Answered 1 := by decide

theorem witness_SubmitWhoseTransferFails :
    (holding .philips 7 [.failure]).bitOffset = 7 ∧ (holding .philips 7 [.failure]).answers = .failure :: [] := by decide

theorem witness_SubmitWhoseTransferNeverReturns :
    (holding .epson 7 [.noReturn]).bitOffset = 7 ∧ (holding .epson 7 [.noReturn]).answers = .noReturn :: [] := by decide

theorem witness_UnlistedAnswerIsFree :
    (holding .epson 7 []).bitOffset = 7 ∧ (holding .epson 7 []).answers = [] := by decide

theorem witness_NamedSymbolsAreSubmitted :
    (fresh .epson []).bitOffset.val < 7 ∧ (holding .philips 6 []).bitOffset.val < 7 ∧
    (holding .epson 7 [.success]).bitOffset = 7 ∧ (holding .epson 7 [.success]).Answered 1 := by decide

theorem witness_SubmitLeavesOtherSlots :
    (∃ t, exec (.submit .data 0x5A#8) (fresh .epson []) = .next t ∧
      (3 : Fin 9).val ≠ (fresh .epson []).bitOffset.val) ∧
    ∃ t, exec (.submit .data 0x5A#8) (holding .epson 7 [.failure]) = .next t ∧
      (6 : Fin 9).val ≠ (holding .epson 7 [.failure]).bitOffset.val ∧ (6 : Fin 9).val ≠ 8 :=
  ⟨⟨_, rfl, by decide⟩, _, rfl, by decide⟩

theorem witness_TransportByteOnNaturals : 0 < 8 ∧ 7 < 8 := by decide

theorem witness_FrameDecodesToItsSymbols : (List.replicate 8 (d 0x5A#8)).length = 8 := by decide

theorem witness_EightSubmitsSendOneDecodableFrame :
    let ys := List.replicate 8 (d 0x5A#8)
    let s := issuing (fresh .philips [.success]) (ys.map (fun y => encode (.submit y.flag y.data)) ++ [⟨0x0200#13, []⟩])
    ys.length = 8 ∧ s.hung = false ∧ s.bitOffset = 0 ∧ s.Answered 1 ∧
      s.requests = ys.map (fun y => encode (.submit y.flag y.data)) ++ [⟨0x0200#13, []⟩] := by decide

theorem witness_SubmitsAreCutIntoFrames :
    ∀ n ∈ [0, 7, 8, 9],
      let ys := List.replicate n (d 0x5A#8)
      let s := issuing (fresh .philips [.success]) (ys.map (fun y => encode (.submit y.flag y.data)) ++ [])
      s.hung = false ∧ s.AtBoundary ∧ s.Answered (ys.length / 8) ∧
        s.requests = ys.map (fun y => encode (.submit y.flag y.data)) ++ [] := by decide

theorem witness_FlushIsIdempotent :
    (fresh .epson []).bitOffset = 0 ∧
    (∃ t, exec .flush (fresh .epson []) = .next t ∧ t.hung = false) ∧
    ∃ t, exec .flush (holding .epson 1 [.failure]) = .next t ∧ t.hung = false :=
  ⟨rfl, ⟨_, rfl, by decide⟩, _, rfl, by decide⟩

theorem witness_FlushPadsAndSendsOneFrame :
    (holding .epson 1 [.success]).Holds [d 0xFF#8] ∧ [d 0xFF#8] ≠ [] ∧
    (holding .epson 1 [.success]).answers = .success :: [] ∧
    (holding .philips 7 [.failure]).Holds (List.replicate 7 (d 0xFF#8)) ∧ List.replicate 7 (d 0xFF#8) ≠ [] ∧
    (holding .philips 7 [.failure]).answers = .failure :: [] := by decide

theorem witness_FlushEndsAtTheBoundary :
    ((holding .epson 3 [.failure]).bitOffset = 0 → (holding .epson 3 [.failure]).previousSymbol = 0x00#8) ∧
    ∃ t, exec .flush (holding .epson 3 [.failure]) = .next t ∧ t.hung = false :=
  ⟨by decide, _, rfl, by decide⟩

theorem witness_PackJoinsHighNibbles :
    2 * 0 + 1 < [0xAB#8, 0xCD#8, 0xEF#8].length ∧ [0xAB#8, 0xCD#8, 0xEF#8].length % 2 = 1 ∧
    (List.replicate 52272 (0x00#8 : Byte)).length = 52272 := ⟨by decide, by decide, raster_length⟩

theorem witness_PackOddTail : ([] : List Byte).length % 2 = 0 ∧ [0xAB#8, 0xCD#8].length % 2 = 0 := by decide

theorem witness_InitializePhilips :
    ∀ s ∈ [fresh .philips (List.replicate 6 .success), { closed .philips with answers := List.replicate 6 .success }],
      s.lifecycle ≠ .operational ∧ s.params.family = .philips ∧ s.bitOffset = 0 ∧ s.Answered 6 := by decide

theorem witness_InitializeEpson :
    ∀ s ∈ [fresh .epson (List.replicate 7 .success), { closed .epson with answers := List.replicate 7 .success }],
      s.lifecycle ≠ .operational ∧ s.params.family = .epson ∧ s.bitOffset = 0 ∧ s.Answered 7 := by decide

theorem witness_InitializeRefusedWhenOperational : (ready .epson []).lifecycle = .operational := by decide

theorem witness_InitializeStopsAtTheFailingCall :
    ∀ n ∈ [0, 3],
      let s := fresh .epson (List.replicate n .success ++ .failure :: [.success])
      s.lifecycle ≠ .operational ∧ n < 4 ∧ s.answers = List.replicate n .success ++ .failure :: [.success] := by decide

theorem witness_CloseReleasesPinAndBus :
    (ready .epson [.success]).lifecycle = .operational ∧ (ready .epson [.success]).answers = .success :: [] ∧
    (ready .epson [.failure]).lifecycle = .operational ∧ (ready .epson [.failure]).answers = .failure :: [] := by decide

theorem witness_GuardAnswersOutsideOperational :
    (∃ raw, Instr.display [0x00#8] = .display raw) ∧ (fresh .epson []).lifecycle = .inert ∧
    (closed .epson).lifecycle = .closed ∧
    (∀ i ∈ [Instr.rotateNone, .rotate180, .rotate90cw, .rotate90ccw],
      (fresh .philips []).params.family = .philips ∧ i.isRotation = true) ∧
    (fresh .philips []).lifecycle = .inert ∧ (closed .philips).lifecycle = .closed :=
  ⟨⟨_, rfl⟩, by decide⟩

theorem witness_RotationUnsupportedExactlyOnEpson :
    Instr.rotate180.isRotation = true ∧ (ready .epson []).params.family = .epson ∧
    (ready .philips []).params.family = .philips ∧
    (∃ t, exec .rotate180 (ready .philips [.success]) = .next t) ∧
    ∃ t, exec .rotate180 (fresh .philips []) = .next t :=
  ⟨rfl, rfl, rfl, ⟨_, rfl⟩, _, rfl⟩

theorem witness_RotationsSendTheirFrame :
    let s := ready .philips [.success]
    s.params.family = .philips ∧ s.lifecycle = .operational ∧ s.bitOffset = 0 ∧ s.answers = .success :: [] := by decide

theorem witness_TurnOffSendsItsFrame :
    ∀ f ∈ [Family.philips, .epson],
      let s := ready f [.success]
      s.lifecycle = .operational ∧ s.bitOffset = 0 ∧ s.answers = .success :: [] := by decide

theorem witness_TurnOnPhilipsDelaysThenSends :
    let s := ready .philips [.success, .failure]
    s.params.family = .philips ∧ s.lifecycle = .operational ∧ s.bitOffset = 0 ∧
      s.answers = .success :: [.failure] := by decide

theorem witness_TurnOnEpsonRunsItsScript :
    let s := ready .epson [.success]
    s.params.family = .epson ∧ s.lifecycle = .operational ∧ s.AtBoundary ∧
      s.Answered ((operationEvents .epson [] (Item.sym ⟨.command, s.params.epOn.first⟩ ::
        (s.params.epOn.rest.map .sym ++ [.wait .epWake, .sym ⟨.command, s.params.epson.dison⟩]))).countP
          Event.isTransfer) := by decide

theorem witness_DisplaySendsTheRaster :
    ∀ f : Family,
      let s := ready f (List.replicate 3268 .success)
      s.lifecycle = .operational ∧ s.AtBoundary ∧ (List.replicate 52272 (0x00#8 : Byte)).length = 52272 ∧
        s.Answered 3268 :=
  fun f => ⟨rfl, ⟨rfl, rfl⟩, raster_length, answered f 3268⟩

theorem witness_DisplayStopsAtTheFailingFrame :
    ∀ n ∈ [0, 3267],
      let s := ready .philips (List.replicate n .success ++ .failure :: [.success])
      s.lifecycle = .operational ∧ s.AtBoundary ∧ (List.replicate 52272 (0x00#8 : Byte)).length = 52272 ∧ n < 3268 ∧
        s.answers = List.replicate n .success ++ .failure :: [.success] := by
  intro n hn
  refine ⟨rfl, ⟨rfl, rfl⟩, raster_length, ?_, rfl⟩
  simp only [List.mem_cons, List.not_mem_nil, or_false] at hn
  omega

theorem witness_DisplayRefusesAnotherLength :
    (ready .epson []).lifecycle = .operational ∧ ([] : List Byte).length ≠ 52272 ∧
    (List.replicate 52273 (0x00#8 : Byte)).length ≠ 52272 :=
  ⟨rfl, by decide, by rw [List.length_replicate]; decide⟩

theorem witness_ScriptsRefineToWireFrames :
    let s := holding .epson 7 [.success, .success]
    let script : List Item := [.wait .epWake, .sym (c 0x01#8), .sym (d 0x02#8)]
    s.Holds (List.replicate 7 (d 0xFF#8)) ∧
      s.Answered ((operationEvents s.params.family (List.replicate 7 (d 0xFF#8)) script).countP Event.isTransfer) := by
  decide

theorem witness_ScriptsStopAtTheFailingFrame :
    ∀ n ∈ [0, 1],
      let s := holding .epson 7 (List.replicate n .success ++ .failure :: [.success])
      let script : List Item := [.wait .epWake, .sym (c 0x01#8), .sym (d 0x02#8)]
      s.Holds (List.replicate 7 (d 0xFF#8)) ∧
        n < (operationEvents s.params.family (List.replicate 7 (d 0xFF#8)) script).countP Event.isTransfer ∧
        s.answers = List.replicate n .success ++ .failure :: [.success] := by decide

theorem witness_InitializeStopsAtTheFailingFrame :
    ∀ p ∈ [(Family.philips, 0), (.philips, 1), (.epson, 0), (.epson, 2)],
      let s := fresh p.1 (List.replicate (4 + p.2) .success ++ .failure :: [])
      s.lifecycle ≠ .operational ∧ s.Holds [] ∧
        p.2 < (operationEvents s.params.family [] (powerUpScript s.params)).countP Event.isTransfer ∧
        s.answers = List.replicate (4 + p.2) .success ++ .failure :: [] := by decide

theorem witness_PanelOperationsStopAtTheFailingFrame :
    let s := ready .philips (List.replicate 0 .success ++ .failure :: [])
    let e := { holding .epson 7 (List.replicate 1 .success ++ .failure :: []) with lifecycle := .operational }
    (s.lifecycle = .operational ∧ s.Holds [] ∧ s.params.family = .philips ∧
      s.answers = List.replicate 0 .success ++ .failure :: [] ∧
      ∀ script ∈ [turnOffScript s.params, turnOnScript s.params, rotationScript s.params.philips 0x10#8,
        rotationScript s.params.philips 0xC0#8, rotationScript s.params.philips 0x70#8,
        rotationScript s.params.philips 0xB0#8],
        0 < (operationEvents s.params.family [] script).countP Event.isTransfer) ∧
    e.lifecycle = .operational ∧ e.Holds (List.replicate 7 (d 0xFF#8)) ∧
      e.answers = List.replicate 1 .success ++ .failure :: [] ∧
      ∀ script ∈ [turnOffScript e.params, turnOnScript e.params],
        1 < (operationEvents e.params.family (List.replicate 7 (d 0xFF#8)) script).countP Event.isTransfer := by decide

theorem witness_StepKeepsTheInvariant :
    let s := issuing (ready .epson [.success]) [⟨0x1400#13, []⟩]
    s.Inv ∧ ∃ t, step s = .next t ∧ t.lifecycle = .closed :=
  ⟨by decide, _, rfl, by decide⟩

theorem witness_LifecycleTransitionsAreComplete :
    (∃ t, exec .initializeSession (fresh .epson (List.replicate 7 .success)) = .next t ∧
      t.statuses = (fresh .epson (List.replicate 7 .success)).statuses ++ [.ok]) ∧
    (∃ t, exec .close (ready .epson [.failure]) = .next t ∧
      t.statuses = (ready .epson [.failure]).statuses ++ [.transportFailure]) ∧
    ∃ t, exec .turnOff (fresh .epson []) = .next t ∧ t.lifecycle = .inert :=
  ⟨⟨_, rfl, by decide⟩, ⟨_, rfl, by decide⟩, _, rfl, by decide⟩

theorem witness_OneStatusPerOperation :
    (fresh .epson []).hung = false ∧ (∃ t, exec .flush (fresh .epson []) = .next t ∧ t.hung = false) ∧
    ∃ t, exec .close (ready .epson [.noReturn]) = .next t ∧ t.hung = true :=
  ⟨rfl, ⟨_, rfl, by decide⟩, _, rfl, by decide⟩

theorem witness_ConditionsAreRaisedWhereListed :
    (∃ t, exec .turnOn (fresh .epson []) = .next t ∧ t.statuses = (fresh .epson []).statuses ++ [.notInitialized]) ∧
    (∃ t, exec .close (closed .epson) = .next t ∧ t.statuses = (closed .epson).statuses ++ [.alreadyClosed]) ∧
    (∃ t, exec .rotateNone (fresh .epson []) = .next t ∧ t.statuses = (fresh .epson []).statuses ++ [.unsupported]) ∧
    (∃ t, exec .initializeSession (ready .epson []) = .next t ∧
      t.statuses = (ready .epson []).statuses ++ [.alreadyInitialized]) ∧
    (∃ t, exec .initializeSession (fresh .epson [.failure]) = .next t ∧
      t.statuses = (fresh .epson [.failure]).statuses ++ [.transportFailure]) ∧
    (∃ t, exec .rotate180 (ready .philips [.failure]) = .next t ∧
      t.statuses = (ready .philips [.failure]).statuses ++ [.transportFailure]) ∧
    (∃ t, exec .flush (holding .epson 1 [.failure]) = .next t ∧
      t.statuses = (holding .epson 1 [.failure]).statuses ++ [.transportFailure]) ∧
    ∃ t, exec .addrLow (holding .epson 7 [.failure]) = .next t ∧
      t.statuses = (holding .epson 7 [.failure]).statuses ++ [.transportFailure] :=
  ⟨⟨_, rfl, by decide⟩, ⟨_, rfl, by decide⟩, ⟨_, rfl, by decide⟩, ⟨_, rfl, by decide⟩, ⟨_, rfl, by decide⟩,
    ⟨_, rfl, by decide⟩, ⟨_, rfl, by decide⟩, _, rfl, by decide⟩

theorem witness_RefusalsChangeNothing :
    ∃ t, exec .rotateNone (ready .epson []) = .next t ∧ t.statuses = (ready .epson []).statuses ++ [.unsupported] ∧
      Status.unsupported ≠ .ok ∧ Status.unsupported ≠ .transportFailure :=
  ⟨_, rfl, by decide⟩

theorem witness_TransportFailureLeavesACleanBoundary :
    ∃ t, exec .turnOff (ready .philips [.failure]) = .next t ∧
      t.statuses = (ready .philips [.failure]).statuses ++ [.transportFailure] ∧ t.fault = true :=
  ⟨_, rfl, by decide⟩

theorem witness_StepOnlyAddsToHistory :
    let s := { issuing (ready .epson [.success]) [⟨0x0800#13, []⟩] with fault := true }
    ∃ t, step s = .next t ∧ s.fault = true :=
  ⟨_, rfl, by decide⟩

theorem witness_OnlySessionOperationsTouchBusAndPin :
    ∃ t, exec .turnOn (ready .philips [.success]) = .next t ∧ Instr.turnOn ≠ .initializeSession ∧
      Instr.turnOn ≠ .close :=
  ⟨_, rfl, by decide⟩

theorem witness_SequencerOperationsEndAtTheBoundary :
    Instr.turnOn.isSequencer = true ∧ (ready .epson [.failure]).AtBoundary ∧
    ∃ t, exec .turnOn (ready .epson [.failure]) = .next t ∧ t.hung = false :=
  ⟨rfl, by decide, _, rfl, by decide⟩

theorem witness_NoBusAccessBeforeTheBusIsOpened :
    (fresh .epson [.success, .failure]).Inv ∧ (fresh .epson [.success, .failure]).hung = false ∧
    Instr.initializeSession.isSequencer = true ∧ (fresh .epson [.success, .failure]).busOpen = false ∧
    ∃ t, exec .initializeSession (fresh .epson [.success, .failure]) = .next t :=
  ⟨by decide, rfl, rfl, rfl, _, rfl⟩

end Sys2Proof.Tests
end

/-! PROOFS. A step only adds to what is observed of the block (00_scope.md R8, 10_state.md R32, 20_memory.md R64). -/

namespace Sys2Proof.Machine

/-- From `s` to `t` the parameters and the waiting requests are as they were, the mark is not cleared, and the trace and
the statuses grow at their end only: what every instruction keeps (the requests are taken before it runs). -/
structure HistoryGrows (s t : State) : Prop where
  params : t.params = s.params
  fault : s.fault = true → t.fault = true
  trace : s.trace <+: t.trace
  statuses : s.statuses <+: t.statuses
  requests : t.requests = s.requests

theorem HistoryGrows.report (s : State) (c : Status) : HistoryGrows s (s.report c) :=
  ⟨rfl, id, List.prefix_rfl, ⟨[c], rfl⟩, rfl⟩

/-- However an instruction ended, a set fault mark stays set (10_state.md R32). -/
theorem Ended.fault_stays {i : Instr} {s t : State} (h : Ended i s t) (hs : s.fault = true) : t.fault = true := by
  cases h with
  | ok _ fault => exact fault.trans hs
  | failed _ fault => exact fault
  | stuck _ fault => exact fault.trans hs

/-- However an instruction ended, it put at most one status behind those returned before. -/
theorem Ended.statuses_prefix {i : Instr} {s t : State} (h : Ended i s t) : s.statuses <+: t.statuses := by
  cases h with
  | ok status => exact ⟨_, status.symm⟩
  | failed status => exact ⟨_, status.symm⟩
  | stuck status => exact ⟨[], by rw [status, List.append_nil]⟩

theorem exec_historyGrows {i : Instr} {s t : State} (h : exec i s = .next t) : HistoryGrows s t := by
  obtain ⟨c, -, rfl⟩ | ⟨params, requests, trace, ended⟩ := exec_cases h
  · exact .report s c
  · exact ⟨params, ended.fault_stays, trace, ended.statuses_prefix, requests⟩

/-- A step that is not a wait lets the history grow from the state with the oldest request taken; a wait has no request
to take. -/
theorem step_historyGrows {s t : State} (h : step s = .next t) : HistoryGrows s.takeRequest t := by
  obtain ⟨-, ⟨hnone, rfl⟩ | ⟨r, rest, -, ⟨i, -, hexec⟩ | ⟨-, rfl⟩⟩⟩ := step_cases h
  · exact ⟨rfl, id, List.prefix_rfl, List.prefix_rfl, by simp [hnone]⟩
  · exact exec_historyGrows hexec
  · exact .report _ _

/-- Settles O49: by cases on what the step did, from the state with the oldest request taken. -/
theorem stepOnlyAddsToHistory : Obligations.StepOnlyAddsToHistory := by
  intro s t h
  obtain ⟨params, fault, trace, statuses, requests⟩ := step_historyGrows h
  exact ⟨params, fault, trace, statuses, requests⟩

end Sys2Proof.Machine


/-! PROOFS. The state of the block: its reset value, the invariant and that every step keeps it, the frame boundary at
the end of a sequencer operation, and the first bus call (10_state.md R22 to R40, 60_exceptions.md R203, R206). -/

namespace Sys2Proof.Machine

/-! ### Reset and the oldest request -/

/-- Settles O1: every field is the one that `State.construct` writes. -/
theorem resetIsTheConstructedState : Obligations.ResetIsTheConstructedState :=
  ⟨fun p => ⟨rfl, rfl, rfl, fun j => by simp, rfl, rfl, rfl, rfl, rfl⟩, rfl, rfl, rfl, rfl⟩

theorem step_of_request {s : State} {r : Request} {rest : List Request} (hh : s.hung = false)
    (hr : s.requests = r :: rest) : step s = runDecoded (decode r) s.takeRequest := by
  simp [step, hh, hr]

theorem State.takeRequest_of_cons {s : State} {r : Request} {rest : List Request} (hr : s.requests = r :: rest) :
    s.takeRequest = { s with requests := rest } := by
  simp [State.takeRequest, hr]

/-- Settles O6: the step is `runDecoded` of the oldest request, which is `exec` of the instruction decoded. -/
theorem stepRunsTheOldestRequest : Obligations.StepRunsTheOldestRequest := by
  intro s r rest i hh hr hd
  rw [step_of_request hh hr, hd, State.takeRequest_of_cons hr]
  rfl

/-- A session constructed with a positive clock satisfies the invariant: it is inert and its pin is unconfigured. -/
theorem State.construct_inv {p : Params} (hp : p.wf = true) : (State.construct p).Inv :=
  ⟨fun _ => rfl, by simp, by simp, by simp, hp⟩

/-- Settles O42: the default clock of 6 MHz is positive. -/
theorem invariantHoldsAtReset : Obligations.InvariantHoldsAtReset :=
  State.construct_inv (p := Config.defaultParams) (by decide)

/-! ### Every step keeps the invariant -/

/-- What is to be shown of an operation's last state, from how its run stands. -/
theorem Run.Sat.finish {P : State → Prop} {r : Run}
    (h : r.Sat (fun t => P (t.report .ok)) (fun c t => P (t.report c)) (fun t => P t.hang)) : P r.finish := by
  cases r with
  | going t => exact h
  | raised c t => exact h
  | stuck t => exact h

/-- The invariant does not look at the statuses returned. -/
theorem State.Inv.report {s : State} (h : s.Inv) (c : Status) : (s.report c).Inv := h

/-- The invariant does not look at the waiting requests. -/
theorem State.Inv.takeRequest {s : State} (h : s.Inv) : s.takeRequest.Inv := h

/-- What the invariant asks of an Operational session it does not ask of one that waits for ever. -/
theorem State.Inv.hang {s : State} (h : s.Inv) : s.hang.Inv := by
  obtain ⟨hprev, -, hlow, hdriven, hwf⟩ := h
  exact ⟨hprev, by simp, hlow, hdriven, hwf⟩

/-- Framer work touches none of the fields the invariant speaks of but `k` and `prev`. -/
theorem FramerOnly.inv {s t : State} (w : FramerOnly s t) (hs : s.Inv)
    (hprev : t.bitOffset = 0 → t.previousSymbol = 0x00#8) : t.Inv := by
  obtain ⟨-, hoper, hlow, hdriven, hwf⟩ := hs
  rw [← w.hung, ← w.lifecycle, ← w.busOpen, ← w.pinState] at hoper
  rw [← w.pinState] at hlow
  rw [← w.pinState, ← w.busOpen] at hdriven
  rw [← w.params] at hwf
  exact ⟨hprev, hoper, hlow, hdriven, hwf⟩

theorem FramerWork.finish_inv {s : State} {r : Run} (h : FramerWork s r) (hs : s.Inv) : r.finish.Inv := by
  have ⟨hcleared, _⟩ := hs
  refine Run.Sat.finish (Run.Sat.mono h ?_ ?_ ?_)
  · rintro t ⟨w, -, hprev⟩
    exact (w.inv hs (hprev hcleared)).report .ok
  · rintro c t ⟨-, w, -, -, hprev⟩
    exact (w.inv hs fun _ => hprev).report c
  · rintro t ⟨w, -, hprev⟩
    exact (w.inv hs hprev).hang

/-- A session that is not Operational keeps the invariant where INITIALIZE stopped: the line is as it was, with the bus
not given up, or the pulse has driven it high on an open bus. -/
theorem SessionOnly.inv_of_not_operational {s t : State} (w : SessionOnly s t) (hs : s.Inv)
    (hlife : t.lifecycle ≠ .operational) (hbus : s.busOpen = true → t.busOpen = true)
    (hpin : t.pinState = s.pinState ∨ (t.pinState = .outHigh ∧ t.busOpen = true))
    (hprev : t.bitOffset = 0 → t.previousSymbol = 0x00#8) : t.Inv := by
  obtain ⟨-, -, hlow, hdriven, hwf⟩ := hs
  refine ⟨hprev, fun _ h => absurd h hlife, ?_, ?_, by rw [w.params]; exact hwf⟩
  · rcases hpin with hsame | ⟨hhigh, -⟩
    · rw [hsame]
      exact hlow
    · simp [hhigh]
  · rcases hpin with hsame | ⟨-, hopen⟩
    · rw [hsame]
      exact fun hhigh => hbus (hdriven hhigh)
    · exact fun _ => hopen

theorem powerUp_finish_inv {s : State} (hs : s.Inv) (hlife : s.lifecycle ≠ .operational) : (powerUp s).finish.Inv := by
  have ⟨hprev, _, _, _, hwf⟩ := hs
  refine Run.Sat.finish (Run.Sat.mono (powerUp_sat s) ?_ ?_ ?_)
  · rintro t ⟨w, -, hopen, hhigh, -, -, -, hclear⟩
    exact State.Inv.report ⟨fun _ => hclear hprev, fun _ _ => ⟨hopen, hhigh⟩, by simp [hhigh], fun _ => hopen,
      by rw [w.params]; exact hwf⟩ .ok
  · rintro c t ⟨-, w, -, hbus, hpin, hsame, -, -, hclear⟩
    exact (w.inv_of_not_operational hs (hsame ▸ hlife) hbus hpin fun _ => hclear).report c
  · rintro t ⟨w, -, hbus, hpin, hsame, -, hclear⟩
    exact (w.inv_of_not_operational hs (hsame ▸ hlife) hbus hpin (hclear hprev)).hang

/-- An unconfigured line asks nothing of the bus, and a session that is not Operational or waits for ever asks nothing
of the line. -/
theorem State.inv_of_unconfigured {t : State} (hprev : t.bitOffset = 0 → t.previousSymbol = 0x00#8)
    (hpin : t.pinState = .unconfigured) (hoper : t.hung = true ∨ t.lifecycle ≠ .operational)
    (hwf : t.params.wf = true) : t.Inv := by
  refine ⟨hprev, fun hh hl => ?_, by simp [hpin], by simp [hpin], hwf⟩
  rcases hoper with h | h
  · simp [hh] at h
  · exact absurd hl h

theorem release_finish_inv {s : State} (hs : s.Inv) : (release s).finish.Inv := by
  obtain ⟨hprev, -, -, -, hwf⟩ := hs
  refine Run.Sat.finish (Run.Sat.mono (release_sat s) ?_ ?_ ?_)
  · rintro t ⟨w, -, hpin, hclosed, -, hk, hp⟩
    exact (State.inv_of_unconfigured (by rw [hk, hp]; exact hprev) hpin (.inr (by simp [hclosed]))
      (by rw [w.params]; exact hwf)).report .ok
  · rintro c t ⟨-, w, -, hpin, hclosed, -, -, hclear⟩
    exact (State.inv_of_unconfigured (fun _ => hclear) hpin (.inr (by simp [hclosed]))
      (by rw [w.params]; exact hwf)).report c
  · rintro t ⟨w, -, hpin, -, -, hk, hp⟩
    exact State.inv_of_unconfigured (t := t.hang) (by simpa [hk, hp] using hprev) hpin (.inl rfl)
      (by simpa [w.params] using hwf)

/-- Every instruction keeps the invariant (10_state.md R22, R28, R31; 42_session.md R145). -/
theorem exec_inv {i : Instr} {s t : State} (h : exec i s = .next t) (hs : s.Inv) : t.Inv := by
  cases exec_kind h with
  | refused c _ ht => exact ht ▸ hs.report c
  | framer _ _ _ _ r hr _ ht => exact ht ▸ FramerWork.finish_inv hr hs
  | powerUp _ hlife ht => exact ht ▸ powerUp_finish_inv hs hlife
  | release _ _ ht => exact ht ▸ release_finish_inv hs

/-- Settles O43: a step waits, runs an instruction, which keeps the invariant, or returns a status only. -/
theorem stepKeepsTheInvariant : Obligations.StepKeepsTheInvariant := by
  intro s t hs h
  obtain ⟨-, ⟨-, rfl⟩ | ⟨r, rest, -, ⟨i, -, hexec⟩ | ⟨-, rfl⟩⟩⟩ := step_cases h
  · exact hs
  · exact exec_inv hexec hs.takeRequest
  · exact hs.takeRequest.report .illegalOp

/-! ### The frame boundary and the first bus call -/

/-- Settles O51: FLUSH and a transport failure end at the boundary, a refusal and CLOSE do not move the framer. -/
theorem sequencerOperationsEndAtTheBoundary : Obligations.SequencerOperationsEndAtTheBoundary := by
  intro i s t hseq hs h hreturned
  obtain ⟨hk, hp⟩ := hs
  obtain ⟨c, -, rfl⟩ | ⟨-, -, -, ended⟩ := exec_cases h
  · exact ⟨hk, hp⟩
  · cases ended with
    | ok _ _ _ _ boundary close =>
      by_cases hclose : i = .close
      · obtain ⟨-, hk', hp'⟩ := close hclose
        exact ⟨hk'.trans hk, hp'.trans hp⟩
      · obtain ⟨hk', hp'⟩ := boundary hseq hclose
        exact ⟨hk', hp' fun _ => hp⟩
    | failed _ _ _ boundary => exact boundary
    | stuck _ _ hung => simp [hreturned] at hung

/-- However INITIALIZE ends, its first event opens the bus (42_session.md R140). -/
theorem powerUp_finish_firstOpens (s : State) : FirstOpens s (powerUp s).finish := by
  refine Run.Sat.finish (P := FirstOpens s) (Run.Sat.mono (powerUp_sat s) ?_ ?_ ?_)
  · rintro t ⟨-, hopens, -⟩
    exact hopens
  · rintro c t ⟨-, -, hopens, -⟩
    exact hopens
  · rintro t ⟨-, hopens, -⟩
    exact hopens

/-- Settles O52: without the bus the session is not Operational, so only a refusal or INITIALIZE is left. -/
theorem noBusAccessBeforeTheBusIsOpened : Obligations.NoBusAccessBeforeTheBusIsOpened := by
  intro i s t hs hh hseq hbus h
  have hlife : s.lifecycle ≠ .operational := by
    intro hoper
    obtain ⟨-, hholds, -⟩ := hs
    obtain ⟨hopen, -⟩ := hholds hh hoper
    simp [hbus] at hopen
  cases exec_kind h with
  | refused c _ ht => exact .inl (by rw [ht, State.report_trace])
  | framer _ _ hoper => exact absurd (hoper hseq) hlife
  | powerUp _ _ ht => exact .inr (ht ▸ powerUp_finish_firstOpens s)
  | release _ hoper => exact absurd hoper hlife

end Sys2Proof.Machine


/-! PROOFS. Scripts on the bus: FLUSH is a script of its own, the no-op commands that fill the cycle, so
`run(script); FLUSH()` is one longer script (20_memory.md R57, 30_encoding.md R99, 40_framer.md R120). -/

namespace Sys2Proof.Machine

/-! ### FLUSH as a script -/

/-- The script that FLUSH amounts to at position `k` of the cycle: as many no-op commands as bring `k` back to 0, and
none at a frame boundary (40_framer.md R120). -/
def flushPadding (f : Family) (k : Nat) : List Item :=
  (List.replicate ((8 - k) % 8) ⟨.command, noOp f⟩).map .sym

theorem flushPadding_zero (f : Family) : flushPadding f 0 = [] := rfl

theorem flushPadding_of_pos (f : Family) {k : Nat} (h0 : 0 < k) (h8 : k < 8) :
    flushPadding f k = .sym ⟨.command, noOp f⟩ :: flushPadding f ((k + 1) % 8) := by
  have hlen : (8 - k) % 8 = (8 - (k + 1) % 8) % 8 + 1 := by omega
  simp only [flushPadding, hlen, List.replicate_succ, List.map_cons]

/-- The position after a SUBMIT that went on. -/
theorem bitOffset_of_submitSymbol {y : Symbol} {s t : State} (h : submitSymbol y s = .going t) :
    t.bitOffset.val = (s.bitOffset.val + 1) % 8 := by
  have hk := submitSymbol_bitOffset y s
  rw [h, Run.sat_going] at hk
  rw [hk, Fin.val_add]
  rfl

theorem params_of_submitSymbol {y : Symbol} {s t : State} (h : submitSymbol y s = .going t) : t.params = s.params := by
  have hwork := submitSymbol_work y s
  rw [h] at hwork
  obtain ⟨w, -, -⟩ := hwork
  exact w.params

/-- With fuel for the whole padding, the loop of FLUSH runs exactly the padding, whatever the transport answers. -/
theorem flushLoop_eq_runScript (n : Nat) (s : State) (hfuel : (8 - s.bitOffset.val) % 8 ≤ n) :
    flushLoop n s = runScript (flushPadding s.params.family s.bitOffset.val) s := by
  have h8 := s.bitOffset.isLt
  induction n generalizing s with
  | zero =>
    have h0 : s.bitOffset.val = 0 := by omega
    rw [h0, flushPadding_zero]
    rfl
  | succ n ih =>
    rw [flushLoop]
    split
    · next hpos =>
      rw [flushPadding_of_pos _ hpos h8, runScript, runItem]
      cases hr : submitSymbol ⟨.command, noOp s.params.family⟩ s with
      | going t =>
        have hk := bitOffset_of_submitSymbol hr
        rw [Run.going_andThen, Run.going_andThen, ih t (by omega) t.bitOffset.isLt, params_of_submitSymbol hr, hk]
      | raised c t => rfl
      | stuck t => rfl
    · next h0 =>
      rw [Nat.eq_zero_of_not_pos h0, flushPadding_zero]
      rfl

theorem flush_eq_runScript (s : State) : flush s = runScript (flushPadding s.params.family s.bitOffset.val) s :=
  flushLoop_eq_runScript 7 s (by omega)

/-! ### How a script with its padding is cut -/

/-- One part of a script is cut after the other, from what the first leaves waiting. -/
theorem cutScript_append (a b : List Item) (held : List Symbol) :
    cutScript held (a ++ b) =
      ((cutScript held a).1 ++ (cutScript (cutScript held a).2 b).1, (cutScript (cutScript held a).2 b).2) := by
  induction a generalizing held with
  | nil => rfl
  | cons i a ih =>
    cases i with
    | wait t => simp [cutScript, ih]
    | sym y =>
      by_cases h7 : held.length = 7 <;> simp [cutScript, h7, ih]

/-- Fewer than eight symbols wait, always. -/
theorem cutScript_held_length_lt (script : List Item) {held : List Symbol} (h : held.length < 8) :
    (cutScript held script).2.length < 8 := by
  induction script generalizing held with
  | nil => exact h
  | cons i script ih =>
    cases i with
    | wait t => exact ih h
    | sym y =>
      by_cases h7 : held.length = 7
      · simpa [cutScript, h7] using ih (held := []) (by simp)
      · simpa [cutScript, h7] using ih (held := held ++ [y]) (by simp; omega)

/-- The symbols that fill the cycle, one or more, go out as one frame behind those that waited. -/
theorem cutScript_fill (y : Symbol) (ys held : List Symbol) (h : held.length + (y :: ys).length = 8) :
    cutScript held ((y :: ys).map .sym) = ([.busTransfer (frameOf (held ++ y :: ys))], []) := by
  induction ys generalizing y held with
  | nil =>
    have h7 : held.length = 7 := by simpa using h
    simp [cutScript, h7]
  | cons z ys ih =>
    have h7 : held.length ≠ 7 := by simp at h; omega
    have hrest := ih z (held ++ [y]) (by simp at h ⊢; omega)
    rw [List.append_assoc] at hrest
    rw [List.map_cons, cutScript, if_neg h7]
    exact hrest

/-- The padding puts on the bus what FLUSH puts there, and leaves nothing waiting (20_memory.md R57). -/
theorem cutScript_flushPadding (f : Family) {held : List Symbol} (h : held.length < 8) :
    cutScript held (flushPadding f held.length) = (flushEvents f held, []) := by
  by_cases hnil : held = []
  · subst hnil
    rfl
  · have hpos := List.length_pos_iff.2 hnil
    obtain ⟨n, hn⟩ : ∃ n, 8 - held.length = n + 1 := ⟨7 - held.length, by omega⟩
    have hlen : (8 - held.length) % 8 = n + 1 := by omega
    rw [flushPadding, flushEvents, if_neg hnil, hlen, hn, List.replicate_succ]
    exact cutScript_fill _ _ held (by simp; omega)

/-- A script and the padding of what it leaves waiting, as one script. -/
def paddedScript (f : Family) (held : List Symbol) (script : List Item) : List Item :=
  script ++ flushPadding f (cutScript held script).2.length

/-- The padded script cut into frames is `operationEvents`, with nothing left waiting (30_encoding.md R99). -/
theorem cutScript_paddedScript (f : Family) (script : List Item) {held : List Symbol} (h : held.length < 8) :
    cutScript held (paddedScript f held script) = (operationEvents f held script, []) := by
  rw [paddedScript, cutScript_append, cutScript_flushPadding f (cutScript_held_length_lt script h)]
  rfl

/-! ### Running a script and FLUSH -/

/-- Where a script goes on, `k` counts the symbols that the cutting leaves waiting, whatever the transport answered. -/
theorem runScript_bitOffset (script : List Item) {s : State} {held : List Symbol} (h : s.bitOffset.val = held.length) :
    (runScript script s).Sat (fun t => t.bitOffset.val = (cutScript held script).2.length)
      (fun _ _ => True) (fun _ => True) := by
  induction script generalizing s held with
  | nil => exact h
  | cons i script ih =>
    cases i with
    | wait t => exact ih (s := s.emit (.delay t)) h
    | sym y =>
      rw [runScript, runItem]
      have h8 := s.bitOffset.isLt
      cases hr : submitSymbol y s with
      | going t =>
        have hk := bitOffset_of_submitSymbol hr
        by_cases h7 : held.length = 7
        · rw [cutScript, if_pos h7]
          exact ih (by simp [hk, h, h7])
        · rw [cutScript, if_neg h7]
          exact ih (by simp; omega)
      | raised c t => trivial
      | stuck t => trivial

/-- Running a script and then FLUSH is running the padded script, whatever the transport answers. -/
theorem runThenFlush_eq_runScript (script : List Item) {s : State} {held : List Symbol}
    (h : s.bitOffset.val = held.length) :
    runThenFlush script s = runScript (paddedScript s.params.family held script) s := by
  have hwork := runScript_work script s
  have hk := runScript_bitOffset script h
  rw [runThenFlush, paddedScript, runScript_append]
  cases hr : runScript script s with
  | going t =>
    rw [hr] at hwork hk
    obtain ⟨w, -, -⟩ := hwork
    rw [Run.sat_going] at hk
    rw [Run.going_andThen, Run.going_andThen, flush_eq_runScript, w.params, hk]
  | raised c t => rfl
  | stuck t => rfl

/-- Settles O41: `runScript_holds` of the padded script, after which nothing is held. -/
theorem scriptsRefineToWireFrames : Obligations.ScriptsRefineToWireFrames := by
  intro script s held h ev ha
  have ⟨hlen, hcount, _⟩ := h
  have hcut := cutScript_paddedScript s.params.family script hlen
  obtain ⟨b, p, k, hrun, hholds, hbuf⟩ :=
    runScript_holds (paddedScript s.params.family held script) s held h (by rw [hcut]; exact ha)
  rw [hcut] at hrun hholds hbuf
  obtain ⟨rfl, rfl⟩ := (State.holds_nil_iff _).1 hholds
  rw [runThenFlush_eq_runScript script hcount, hrun, hbuf rfl]

end Sys2Proof.Machine


/-! PROOFS. The request word: what its two fields select, that decoding gives an encoded instruction back, and that the
words with `op = 0` all act as SUBMIT (30_encoding.md R86 to R88, R101). -/

namespace Sys2Proof

/-! ### The fields of the request word -/

theorem Request.op_toNat (r : Request) : r.op.toNat = r.word.toNat / 512 := by
  rw [Request.op, BitVec.extractLsb'_toNat, Nat.shiftRight_eq_div_pow]
  omega

theorem Request.op_eq_ofNat (r : Request) : r.op = BitVec.ofNat 4 (r.word.toNat / 512) := by
  rw [← r.op_toNat, BitVec.ofNat_toNat, BitVec.setWidth_eq]

theorem Request.low_toNat (r : Request) : r.low.toNat = r.word.toNat % 512 := by
  rw [Request.low, BitVec.extractLsb'_toNat, Nat.shiftRight_zero]

/-- Bits 8:0 of an instruction's word; `Laws.OpField.op_encode` is the same of bits 12:9. -/
theorem low_encode (i : Instr) : (encode i).low = i.lowBits :=
  BitVec.extractLsb'_append_eq_right

/-! ### The nine bits of a symbol -/

theorem Flag.ofBit_bit (f : Flag) : Flag.ofBit f.bit = f := by
  cases f <;> rfl

theorem Flag.bit_ofBit (b : BitVec 1) : (Flag.ofBit b).bit = b := by
  revert b
  decide

theorem Symbol.ofBits_bits (y : Symbol) : Symbol.ofBits y.bits = y := by
  simp only [Symbol.ofBits, Symbol.bits, BitVec.extractLsb'_append_eq_left, BitVec.extractLsb'_append_eq_right,
    Flag.ofBit_bit]

theorem Symbol.bits_ofBits (b : BitVec 9) : (Symbol.ofBits b).bits = b := by
  rw [Symbol.ofBits, Symbol.bits, Flag.bit_ofBit, BitVec.extractLsb'_append_extractLsb'_eq_extractLsb' (by decide),
    BitVec.extractLsb'_eq_self]

/-- The symbol of nine bits, read off their number. -/
theorem Symbol.ofBits_eq (b : BitVec 9) :
    Symbol.ofBits b = ⟨if b.toNat / 256 = 1 then .data else .command, BitVec.ofNat 8 b.toNat⟩ := by
  have hflag : b.extractLsb' 8 1 = 0#1 ↔ ¬ b.toNat / 256 = 1 := by
    rw [← BitVec.toNat_inj, BitVec.extractLsb'_toNat, Nat.shiftRight_eq_div_pow, BitVec.toNat_ofNat]
    omega
  have hdata : b.extractLsb' 0 8 = BitVec.ofNat 8 b.toNat := by
    rw [BitVec.extractLsb', Nat.shiftRight_zero]
  simp only [Symbol.ofBits, Flag.ofBit, hflag, hdata, ite_not]

/-! ### What the two fields select -/

theorem decode_of_op_zero {r : Request} (h : r.op = 0x0#4) : decode r = .instr (decodeSymbol r.low) := by
  simp [decode, h]

/-- Every other operation's code selects it, with the raster beside the word where it is DISPLAY; bits 8:0 are not
looked at. -/
theorem decode_of_op {r : Request} (i : Instr) (h0 : i.opCode ≠ 0x0#4) (hop : r.op = i.opCode)
    (hraster : ∀ raster, i = .display raster → r.raster = raster) : decode r = .instr i := by
  cases i with
  | display raster => simp [decode, hop, Instr.opCode, hraster raster rfl]
  | flush | initializeSession | turnOff | turnOn | rotateNone | rotate180 | rotate90cw | rotate90ccw | close =>
    simp [decode, hop, Instr.opCode]
  | submit | phNop | epNop | epDisoff | epSlpin | phRotNone | phRot180 | phRot90cw | phRot90ccw | addrLow | addrHigh
  | epDisctlLines => exact absurd rfl h0

/-- `decode_of_op` from the number `n` that bits 12:9 hold. -/
theorem decode_of_code {w : BitVec 13} {raw : List Byte} {n : Nat} (i : Instr) (h0 : i.opCode ≠ 0x0#4)
    (hcode : BitVec.ofNat 4 n = i.opCode) (hraster : ∀ raster, i = .display raster → raw = raster)
    (h : w.toNat / 512 = n) : decode ⟨w, raw⟩ = .instr i :=
  decode_of_op i h0 (by rw [Request.op_eq_ofNat, h, hcode]) hraster

theorem decode_of_reserved {r : Request} (h : 0xB ≤ r.op.toNat) : decode r = .illegalOp r.op := by
  unfold decode
  split
  case h_12 => rfl
  all_goals omega

/-- The nine bits select an instruction that carries exactly them, so no two symbols share one. -/
theorem lowBits_decodeSymbol (b : BitVec 9) : (decodeSymbol b).lowBits = b := by
  unfold decodeSymbol
  split
  case h_12 => exact Symbol.bits_ofBits b
  all_goals
    next h => exact BitVec.eq_of_toNat_eq h.symm

theorem opCode_decodeSymbol (b : BitVec 9) : (decodeSymbol b).opCode = 0x0#4 := by
  unfold decodeSymbol
  split <;> rfl

/-- A symbol without a row of its own is read as SUBMIT (log 2). -/
theorem decodeSymbol_of_unnamed {b : BitVec 9} (h : Symbol.ofBits b ∉ namedSymbols) :
    decodeSymbol b = .submit (Symbol.ofBits b).flag (Symbol.ofBits b).data := by
  unfold decodeSymbol
  split
  case h_12 => rfl
  all_goals
    next hb =>
      have hb' := congrArg (BitVec.ofNat 9) hb
      rw [BitVec.ofNat_toNat, BitVec.setWidth_eq] at hb'
      subst hb'
      exact absurd (by decide) h

theorem decodeSymbol_lowBits {i : Instr} (hwf : i.wf = true) (h0 : i.opCode = 0x0#4) : decodeSymbol i.lowBits = i := by
  cases i with
  | submit f d =>
    have hunnamed : (⟨f, d⟩ : Symbol) ∉ namedSymbols := by simpa [Instr.wf] using hwf
    rw [← Symbol.ofBits_bits ⟨f, d⟩] at hunnamed
    rw [Instr.lowBits, decodeSymbol_of_unnamed hunnamed, Symbol.ofBits_bits]
  | phNop | epNop | epDisoff | epSlpin | phRotNone | phRot180 | phRot90cw | phRot90ccw | addrLow | addrHigh
  | epDisctlLines => rfl
  | flush | initializeSession | display | turnOff | turnOn | rotateNone | rotate180 | rotate90cw | rotate90ccw
  | close => simp [Instr.opCode] at h0

end Sys2Proof

namespace Sys2Proof.Machine

/-- Settles O2: with `op = 0` the nine bits give the symbol's instruction back, with another `op` the code alone does,
and DISPLAY's raster stands beside the word. -/
theorem decodeGivesBackEncodedInstruction : Obligations.DecodeGivesBackEncodedInstruction := by
  intro i hwf
  have hop := Laws.OpField.op_encode i
  by_cases h0 : i.opCode = 0x0#4
  · rw [decode_of_op_zero (hop.trans h0), low_encode, decodeSymbol_lowBits hwf h0]
  · refine decode_of_op i h0 hop ?_
    rintro raster rfl
    rfl

/-- Settles O4: bits 12:9 are the code of the operation named, or one of the reserved codes. -/
theorem opFieldSelectsTheOperation : Obligations.OpFieldSelectsTheOperation := by
  intro w raw
  refine ⟨decode_of_code .flush (by decide) rfl nofun, decode_of_code .initializeSession (by decide) rfl nofun,
    decode_of_code (.display raw) (by simp [Instr.opCode]) rfl fun _ h => Instr.display.inj h,
    decode_of_code .turnOff (by decide) rfl nofun, decode_of_code .turnOn (by decide) rfl nofun,
    decode_of_code .rotateNone (by decide) rfl nofun, decode_of_code .rotate180 (by decide) rfl nofun,
    decode_of_code .rotate90cw (by decide) rfl nofun, decode_of_code .rotate90ccw (by decide) rfl nofun,
    decode_of_code .close (by decide) rfl nofun, fun h => ?_⟩
  rw [decode_of_reserved (by rw [Request.op_toNat]; exact h), Request.op_eq_ofNat]

/-- Settles O5: each word is a closed number, decoded by evaluation. -/
theorem writtenOutWordsDecode : Obligations.WrittenOutWordsDecode := by
  unfold Obligations.WrittenOutWordsDecode
  decide

/-- Settles O7: the step is `illegalRequest` of the state with the request taken. -/
theorem reservedCodesAnswerIllegalOp : Obligations.ReservedCodesAnswerIllegalOp := by
  intro s w raw rest hh hr hcode
  rw [step_of_request hh hr, decode_of_reserved (by rw [Request.op_toNat]; exact hcode), State.takeRequest_of_cons hr]
  rfl

/-! ### The words with `op = 0` -/

/-- An instruction of code 0 submits the symbol that its nine bits spell (R88 (c), log 2). -/
theorem exec_of_opCode_zero {i : Instr} (h : i.opCode = 0x0#4) (s : State) :
    exec i s = exec (.submit (Symbol.ofBits i.lowBits).flag (Symbol.ofBits i.lowBits).data) s := by
  cases i with
  | submit f d => rw [Instr.lowBits, Symbol.ofBits_bits]
  | phNop | epNop | epDisoff | epSlpin | phRotNone | phRot180 | phRot90cw | phRot90ccw | addrLow | addrHigh
  | epDisctlLines => rfl
  | flush | initializeSession | display | turnOff | turnOn | rotateNone | rotate180 | rotate90cw | rotate90ccw
  | close => simp [Instr.opCode] at h

/-- Whichever name the nine bits decode to, their symbol is submitted. -/
theorem exec_decodeSymbol (b : BitVec 9) (s : State) :
    exec (decodeSymbol b) s = exec (.submit (Symbol.ofBits b).flag (Symbol.ofBits b).data) s := by
  rw [exec_of_opCode_zero (opCode_decodeSymbol b), lowBits_decodeSymbol]

/-- Settles O3: the word's nine bits are its number, and whatever they decode to submits the symbol they spell. -/
theorem opZeroWordActsAsSubmit : Obligations.OpZeroWordActsAsSubmit := by
  intro w raw hw
  have hop : (Request.mk w raw).op = 0x0#4 := by rw [Request.op_eq_ofNat, Nat.div_eq_of_lt hw]
  have hlow : (Request.mk w raw).low.toNat = w.toNat := by rw [Request.low_toNat, Nat.mod_eq_of_lt hw]
  refine ⟨_, decode_of_op_zero hop, fun s => ?_⟩
  rw [exec_decodeSymbol, Symbol.ofBits_eq, hlow]

/-- SUBMIT at `k` in 0..6 gives the state of R111 and R112: the three parts of the byte are those of the algorithm. -/
theorem exec_submit_of_lt {s : State} (y : Symbol) (h : s.bitOffset.val < 7) :
    exec (.submit y.flag y.data) s = .next (s.afterMidSubmit y) := by
  show Host.Outcome.next (submitSymbol y s).finish = _
  rw [submitSymbol_of_lt y h, transportByte_eq_or _ s.bitOffset.isLt]
  rfl

theorem State.full_frameBuffer_eq_completedFrame (s : State) (y : Symbol) :
    (s.full y).frameBuffer = s.completedFrame y := by
  have hshift : y.data >>> 8 = 0#8 := BitVec.ushiftRight_eq_zero (by decide)
  rw [State.full, State.completedFrame, transportByte_eq_or 7 (by decide)]
  simp [hshift]

/-- SUBMIT at `k = 7` with a transfer that succeeds gives the state of R113 and R114. -/
theorem exec_submit_of_seven {s : State} (y : Symbol) (h : s.bitOffset = 7) (ha : s.Answered 1) :
    exec (.submit y.flag y.data) s = .next (s.afterFullSubmit y) := by
  obtain ⟨rest, hrest, -⟩ := ha.cons
  show Host.Outcome.next (submitSymbol y s).finish = _
  rw [submitSymbol_of_seven y h, transport_of_success (s := s.full y) hrest, State.full_frameBuffer_eq_completedFrame]
  simp only [Run.going_andThen, Run.finish_going, State.afterFullSubmit, hrest, List.tail_cons]
  rfl

/-- Settles O14: each row has code 0 and spells its symbol, so it runs as SUBMIT of it. -/
theorem namedSymbolsAreSubmitted : Obligations.NamedSymbolsAreSubmitted := by
  intro p hp s
  have hrow : p.1.opCode = 0x0#4 ∧ Symbol.ofBits p.1.lowBits = p.2 := by
    revert p
    decide
  obtain ⟨hcode, hsymbol⟩ := hrow
  rw [exec_of_opCode_zero hcode, hsymbol]
  exact ⟨exec_submit_of_lt p.2, exec_submit_of_seven p.2⟩

end Sys2Proof.Machine


/-! PROOFS. The bytes of the wire: the stored byte on naturals, and the eight symbols of a frame (20_memory.md R54,
30_encoding.md R82 to R84, 40_framer.md R110). -/

namespace Sys2Proof.Machine

/-! ### The stored byte on naturals -/

section
variable {k : Nat} (hk : k < 8) (x : Byte)
include hk

theorem toNat_flagBit : (1#8 <<< (7 - k)).toNat = 2 ^ (7 - k) := by
  interval_cases k <;> rfl

theorem toNat_overlayFlag_command : (overlayFlag k .command x).toNat = x.toNat &&& (0xFF - 2 ^ (7 - k)) := by
  rw [overlayFlag, BitVec.toNat_and, BitVec.toNat_not, toNat_flagBit hk]

theorem toNat_overlayFlag_data : (overlayFlag k .data x).toNat = x.toNat ||| 2 ^ (7 - k) := by
  rw [overlayFlag, BitVec.toNat_or, toNat_flagBit hk]

end

theorem toNat_byte_shiftLeft (x : Byte) (n : Nat) : (x <<< n).toNat = (x.toNat * 2 ^ n) &&& 0xFF := by
  rw [BitVec.toNat_shiftLeft, Nat.shiftLeft_eq]
  exact (Nat.and_two_pow_sub_one_eq_mod _ 8).symm

/-- Settles O16: each shift of a byte is the source's shift of its number, cut to eight bits where it goes left. -/
theorem transportByteOnNaturals : Obligations.TransportByteOnNaturals := by
  intro k prev f d hk shifted
  have hshifted : (if 0 < k then d >>> (k + 1) ||| prev <<< (8 - k) else d >>> (k + 1)).toNat = shifted := by
    simp only [shifted]
    split
    · rw [BitVec.toNat_or, BitVec.toNat_ushiftRight, Nat.shiftRight_eq_div_pow, toNat_byte_shiftLeft]
    · rw [BitVec.toNat_ushiftRight, Nat.shiftRight_eq_div_pow, Nat.or_zero]
  cases f with
  | command => exact (toNat_overlayFlag_command hk _).trans (by rw [hshifted])
  | data => exact (toNat_overlayFlag_data hk _).trans (by rw [hshifted])

/-! ### A frame and its symbols -/

theorem flag_eq_of_data {f g : Flag} (h : decide (f = .data) = decide (g = .data)) : f = g := by
  cases f <;> cases g <;> simp_all

section
variable (b : Frame) {i p : Nat} (hi : i < 8)

/-- The flag of symbol `i` is the bit that SUBMIT overlays on byte `i`. -/
theorem frameSymbol_flag : decide ((frameSymbol b ⟨i, hi⟩).flag = .data) = b[i].getLsbD (7 - i) := by
  have hbit : (b[i] >>> (7 - i)).extractLsb' 0 1 = BitVec.ofBool (b[i].getLsbD (7 - i)) := by
    apply BitVec.eq_of_getLsbD_eq
    intro j hj
    obtain rfl : j = 0 := by omega
    simp
  simp only [frameSymbol, hbit]
  cases b[i].getLsbD (7 - i) <;> rfl

/-- The mask of `frameSymbol` keeps the bits below the flag. -/
theorem lowMask_getLsbD : ∀ i p : Fin 8, ((1#8 <<< (7 - i.val)) - 1#8).getLsbD p.val = decide (p.val < 7 - i.val) := by
  decide

/-- The low bits of symbol `i` stand at the high end of byte `i + 1`. -/
theorem frameSymbol_data_getLsbD_of_le (hp : p ≤ i) :
    (frameSymbol b ⟨i, hi⟩).data.getLsbD p = b[i + 1].getLsbD (7 - i + p) := by
  simp [frameSymbol, show p < i + 1 by omega]

/-- The high bits of symbol `i` stand at the low end of byte `i`, below the flag. -/
theorem frameSymbol_data_getLsbD_of_lt (hip : i < p) (hp : p < 8) :
    (frameSymbol b ⟨i, hi⟩).data.getLsbD p = b[i].getLsbD (p - (i + 1)) := by
  have hmask : ((1#8 <<< (7 - i)) - 1#8).getLsbD (p - (i + 1)) = true :=
    (lowMask_getLsbD ⟨i, hi⟩ ⟨p - (i + 1), by omega⟩).trans (decide_eq_true (by dsimp only; omega))
  simp only [frameSymbol, BitVec.getLsbD_or, BitVec.getLsbD_shiftLeft, BitVec.getLsbD_and, BitVec.getLsbD_ushiftRight,
    hmask, BitVec.getLsbD_of_ge b[i + 1] (7 - i + p) (by omega)]
  simp [hp, show ¬ p < i + 1 by omega]

end

section
variable {ys : List Symbol} (h : ys.length = 8) {i : Nat} (hi : i < 8)
include h

/-- The low bits of symbol `i` are the high bits of byte `i + 1` of its frame, the last byte among them. -/
theorem frameOf_succ_getLsbD {p : Nat} (hp : p ≤ i) :
    (frameOf ys)[i + 1].getLsbD (7 - i + p) = ys[i].data.getLsbD p := by
  by_cases h7 : i = 7
  · subst h7
    simp only [frameOf_last h, Nat.sub_self, Nat.zero_add]
  · rw [frameOf_getElem h (i + 1) (by omega), transportByte_getLsbD _ (by omega) _ _ _ (by omega), if_pos (by omega),
      if_neg (Nat.succ_ne_zero i), show 7 - i + p - (8 - (i + 1)) = p by omega]
    rfl

theorem frameSymbol_frameOf : frameSymbol (frameOf ys) ⟨i, hi⟩ = ys[i] := by
  have hflag : (frameSymbol (frameOf ys) ⟨i, hi⟩).flag = ys[i].flag := by
    apply flag_eq_of_data
    rw [frameSymbol_flag, frameOf_getElem h i hi, transportByte_getLsbD i hi _ _ _ (by omega), if_neg (by omega),
      if_pos rfl]
  have hdata : (frameSymbol (frameOf ys) ⟨i, hi⟩).data = ys[i].data := by
    apply BitVec.eq_of_getLsbD_eq
    intro p hp
    by_cases hpi : p ≤ i
    · rw [frameSymbol_data_getLsbD_of_le _ hi hpi, frameOf_succ_getLsbD h hi hpi]
    · rw [frameSymbol_data_getLsbD_of_lt _ hi (by omega) hp, frameOf_getElem h i hi,
        transportByte_getLsbD i hi _ _ _ (by omega), if_neg (by omega), if_neg (by omega), Nat.add_sub_of_le (by omega)]
  exact congrArg₂ Symbol.mk hflag hdata

theorem decodeFrame_frameOf : decodeFrame (frameOf ys) = ys :=
  List.ext_getElem (by simp [decodeFrame, h]) fun i hi _ => by
    simp only [decodeFrame, List.getElem_ofFn, frameSymbol_frameOf h]

end

section
variable (b : Frame)

/-- Byte `j` of a frame is what SUBMIT stores of the symbols `j - 1` and `j` that the frame holds. -/
theorem transportByte_frameSymbol {j : Nat} (hj : j < 8) :
    transportByte j (if j = 0 then 0 else (frameSymbol b ⟨j - 1, by omega⟩).data) (frameSymbol b ⟨j, hj⟩) = b[j] := by
  apply BitVec.eq_of_getLsbD_eq
  intro i hi
  rw [transportByte_getLsbD j hj _ _ _ hi, frameSymbol_flag]
  split
  · next hprev =>
    obtain ⟨m, rfl⟩ : ∃ m, j = m + 1 := ⟨j - 1, by omega⟩
    simp only [Nat.add_sub_cancel, if_neg (Nat.succ_ne_zero m)]
    rw [frameSymbol_data_getLsbD_of_le _ _ (by omega), show 7 - m + (i - (8 - (m + 1))) = i by omega]
  · split
    · next hflag => rw [hflag]
    · rw [frameSymbol_data_getLsbD_of_lt _ _ (by omega) (by omega), Nat.add_sub_cancel_left]

theorem frameSymbol_seven_data : (frameSymbol b ⟨7, by decide⟩).data = b[8] := by
  apply BitVec.eq_of_getLsbD_eq
  intro p hp
  simp only [frameSymbol_data_getLsbD_of_le b _ (Nat.le_of_lt_succ hp), Nat.sub_self, Nat.zero_add]

theorem frameOf_decodeFrame : frameOf (decodeFrame b) = b := by
  have hlen : (decodeFrame b).length = 8 := List.length_ofFn
  apply Vector.ext
  intro j hj
  by_cases h8 : j = 8
  · subst h8
    simp only [frameOf_last hlen]
    simp only [decodeFrame, List.getElem_ofFn, frameSymbol_seven_data]
  · rw [frameOf_getElem hlen j (by omega)]
    simp only [decodeFrame, List.getElem_ofFn]
    exact transportByte_frameSymbol b (by omega)

end

/-- Settles O17: both round trips, bit by bit. -/
theorem frameDecodesToItsSymbols : Obligations.FrameDecodesToItsSymbols :=
  ⟨fun _ => decodeFrame_frameOf, frameOf_decodeFrame⟩

end Sys2Proof.Machine


/-! PROOFS. SUBMIT requests one after the other: they run as a script of their symbols (20_memory.md R64,
40_framer.md R115). -/

namespace Sys2Proof.Machine

/-- The state with other waiting requests and other statuses returned, which the framer does not look at. -/
def State.withCaller (s : State) (rs : List Request) (cs : List Status) : State :=
  { s with requests := rs, statuses := cs }

theorem transport_withCaller {e : Event} {s t : State} (h : transport e s = .going t) (rs : List Request)
    (cs : List Status) : transport e (s.withCaller rs cs) = .going (t.withCaller rs cs) := by
  cases ha : s.answers with
  | nil =>
    rw [transport_of_free ha] at h
    rw [transport_of_free (s := s.withCaller rs cs) ha]
    split at h
    · next hfree =>
      cases h
      exact if_pos hfree
    · cases h
  | cons a rest =>
    cases a with
    | success =>
      rw [transport_of_success ha] at h
      cases h
      exact transport_of_success (s := s.withCaller rs cs) ha
    | failure => rw [transport_of_failure ha] at h; cases h
    | noReturn => rw [transport_of_noReturn ha] at h; cases h

theorem submitSymbol_withCaller {y : Symbol} {s t : State} (h : submitSymbol y s = .going t) (rs : List Request)
    (cs : List Status) : submitSymbol y (s.withCaller rs cs) = .going (t.withCaller rs cs) := by
  by_cases h7 : s.bitOffset = 7
  · rw [submitSymbol_of_seven y h7] at h
    rw [submitSymbol_of_seven y (s := s.withCaller rs cs) h7]
    cases hr : transport (.busTransfer (s.full y).frameBuffer) (s.full y) with
    | going u =>
      rw [hr] at h
      cases h
      exact congrArg (Run.andThen · _) (transport_withCaller hr rs cs)
    | raised c u => rw [hr] at h; cases h
    | stuck u => rw [hr] at h; cases h
  · have hlt : s.bitOffset.val < 7 := by omega
    rw [submitSymbol_of_lt y hlt] at h
    cases h
    exact submitSymbol_of_lt (s := s.withCaller rs cs) y hlt

/-- One SUBMIT request that goes on, whichever name its word decodes to (log 2). -/
theorem step_submit {s t : State} {y : Symbol} (hh : s.hung = false) (h : submitSymbol y s = .going t)
    (rest : List Request) (cs : List Status) :
    step (s.withCaller (encode (.submit y.flag y.data) :: rest) cs) = .next (t.withCaller rest (cs ++ [.ok])) := by
  have hdecode : decode (encode (.submit y.flag y.data)) = .instr (decodeSymbol y.bits) := by
    rw [decode_of_op_zero (Laws.OpField.op_encode _), low_encode]
    rfl
  have hexec : exec (decodeSymbol y.bits) (s.withCaller rest cs) = .next (t.withCaller rest (cs ++ [.ok])) := by
    rw [exec_decodeSymbol, Symbol.ofBits_bits]
    show Host.Outcome.next (submitSymbol y (s.withCaller rest cs)).finish = _
    rw [submitSymbol_withCaller h]
    rfl
  rw [step_of_request (s := s.withCaller (_ :: rest) cs) hh rfl, hdecode]
  exact hexec

theorem run_succ_of_step {M : Host.Core} {s t : M.State} (h : M.step s = .next t) (n : Nat) :
    M.run (n + 1) s = M.run n t := by
  rw [Host.Core.run, h]

/-- SUBMIT requests that all go on run as the script of their symbols and return Ok each; later requests wait on. -/
theorem run_submits {ys : List Symbol} {s t : State} (hh : s.hung = false)
    (h : runScript (ys.map .sym) s = .going t) (rest : List Request) (cs : List Status) :
    Host.Core.run Sys2Proof.core ys.length
        (s.withCaller (ys.map (fun y => encode (.submit y.flag y.data)) ++ rest) cs) =
      .next (t.withCaller rest (cs ++ List.replicate ys.length .ok)) := by
  induction ys generalizing s cs with
  | nil =>
    cases h
    rw [List.length_nil, List.replicate_zero, List.append_nil]
    rfl
  | cons y ys ih =>
    rw [List.map_cons, runScript, runItem] at h
    cases hu : submitSymbol y s with
    | going u =>
      have hwork := submitSymbol_work y s
      rw [hu] at h hwork
      obtain ⟨w, -, -⟩ := hwork
      have hrest := ih (w.hung.trans hh) h (cs ++ [.ok])
      rw [List.append_assoc, List.singleton_append, ← List.replicate_succ] at hrest
      exact (run_succ_of_step (M := Sys2Proof.core) (step_submit hh hu _ cs) ys.length).trans hrest
    | raised c u => rw [hu] at h; cases h
    | stuck u => rw [hu] at h; cases h

/-- Eight symbols from `k = 0` with a transfer that succeeds send their frame, whatever `prev` was. -/
theorem runScript_eight {ys : List Symbol} {s : State} (hlen : ys.length = 8) (hk : s.bitOffset = 0)
    (ha : s.Answered 1) :
    runScript (ys.map .sym) s = .going
      { s with
        frameBuffer := frameOf ys, bitOffset := 0, previousSymbol := 0x00#8
        trace := s.trace ++ [.busTransfer (frameOf ys)], answers := s.answers.tail } := by
  cases ys with
  | nil => simp at hlen
  | cons y ys =>
    have hcut : cutScript [] ((y :: ys).map .sym) = ([.busTransfer (frameOf (y :: ys))], []) :=
      cutScript_fill y ys [] (by rw [List.length_nil, Nat.zero_add, hlen])
    obtain ⟨b, p, k, hrun, hholds, hbuf⟩ :=
      runScript_holds ((y :: ys).map .sym) s.toBoundary [] ((State.holds_nil_iff _).2 ⟨rfl, rfl⟩)
        (by rw [hcut]; exact ha)
    rw [hcut] at hrun hholds hbuf
    obtain ⟨rfl, rfl⟩ := (State.holds_nil_iff _).1 hholds
    have hstart : runScript ((y :: ys).map .sym) s = runScript ((y :: ys).map .sym) s.toBoundary :=
      congrArg (Run.andThen · _) (submitSymbol_toBoundary y hk)
    rw [hstart, hrun, hbuf rfl, ← List.drop_one]
    rfl

/-- Settles O18: the eight requests run as the script of their symbols, which sends one frame; decoding it gives them
back. -/
theorem eightSubmitsSendOneDecodableFrame : Obligations.EightSubmitsSendOneDecodableFrame := by
  intro ys s rest hlen hh hk ha hr
  have hrun := run_submits hh (runScript_eight hlen hk ha) rest s.statuses
  rw [← hr, hlen] at hrun
  exact ⟨_, frameOf ys, hrun, rfl, decodeFrame_frameOf hlen, rfl, ⟨rfl, rfl⟩, rfl, rfl, rfl⟩

end Sys2Proof.Machine


/-! PROOFS. SUBMIT and FLUSH as operations of the framer's own port: what each stores, sends and leaves, and how a stream
of SUBMIT requests is cut into frames (40_framer.md). -/

namespace Sys2Proof.Machine

/-! ### SUBMIT -/

/-- Settles O9: the byte stored at `k` in 0..6 is the three disjoint parts of R112. -/
theorem submitMidCycleStoresOneByte : Obligations.SubmitMidCycleStoresOneByte :=
  fun _ f d h => exec_submit_of_lt ⟨f, d⟩ h

/-- Settles O10: at `k = 7` the run is one transfer of the completed frame, which succeeds. -/
theorem submitAtSevenSendsTheFrame : Obligations.SubmitAtSevenSendsTheFrame :=
  fun _ f d h ha => exec_submit_of_seven ⟨f, d⟩ h ha

/-- Settles O11: at `k = 7` the run is one transfer of the completed frame, and its failure ends the run. -/
theorem submitWhoseTransferFails : Obligations.SubmitWhoseTransferFails := by
  intro s f d rest h ha
  show Host.Outcome.next (submitSymbol ⟨f, d⟩ s).finish = _
  rw [submitSymbol_of_seven _ h, transport_of_failure (s := s.full ⟨f, d⟩) ha, State.full_frameBuffer_eq_completedFrame]
  rfl

/-- The slots that SUBMIT in state `s` does not write are in `t` what they are in `s`. -/
def SameOtherSlots (s t : State) : Prop :=
  ∀ j : Fin 9, j.val ≠ s.bitOffset.val → (s.bitOffset = 7 → j.val ≠ 8) → t.frameBuffer[j.val] = s.frameBuffer[j.val]

theorem State.full_sameOtherSlots {s : State} (y : Symbol) (h : s.bitOffset = 7) : SameOtherSlots s (s.full y) := by
  intro j hk h8
  have h7 : j.val ≠ 7 := by simpa [h] using hk
  rw [State.full, Vector.getElem_set_ne _ _ (Ne.symm (h8 h)), Vector.getElem_set_ne _ _ (Ne.symm h7)]

/-- However SUBMIT goes on or ends, it has written no slot but `k`, and at `k = 7` slot 8 (40_framer.md R110). -/
theorem submitSymbol_sameOtherSlots (y : Symbol) (s : State) :
    (submitSymbol y s).Sat (SameOtherSlots s) (fun _ => SameOtherSlots s) (SameOtherSlots s) := by
  by_cases h7 : s.bitOffset = 7
  · have hfull := State.full_sameOtherSlots y h7
    have hcall : SameOtherSlots s ((s.full y).emit (.busTransfer (s.full y).frameBuffer)).useAnswer := by
      simpa [SameOtherSlots] using hfull
    rw [submitSymbol_of_seven y h7]
    refine Run.Sat.andThen ((transport_sat _ _).mono (fun _ h => h) ?_ ?_) ?_
    · rintro c t ⟨-, rfl⟩
      exact hcall
    · rintro t rfl
      exact hcall
    · rintro t rfl
      exact hcall
  · rw [submitSymbol_of_lt y (by omega)]
    intro j hk _
    exact Vector.getElem_set_ne (by omega) _ (Ne.symm hk)

/-- Settles O15: the run wrote no other slot, and returning its status writes none. -/
theorem submitLeavesOtherSlots : Obligations.SubmitLeavesOtherSlots := by
  intro s t f d h
  obtain rfl := Host.Outcome.next.inj h
  exact Run.Sat.finish (P := SameOtherSlots s) (submitSymbol_sameOtherSlots ⟨f, d⟩ s)

/-! ### SUBMIT requests cut into frames -/

theorem framesOf_of_length_lt {ys : List Symbol} (h : ys.length < 8) : framesOf ys = [] := by
  unfold framesOf
  split
  · simp only [List.length_cons] at h
    omega
  · rfl

theorem framesOf_append {xs : List Symbol} (h : xs.length = 8) (ys : List Symbol) :
    framesOf (xs ++ ys) = frameOf xs :: framesOf ys := by
  obtain ⟨a, b, c, d, e, f, g, x, rfl⟩ := eq_eight_of_length h
  rfl

/-- A stream of symbols, eight at a time: fewer than eight, or eight in front of a shorter stream. -/
theorem eightwise_induction {P : List Symbol → Prop} (short : ∀ ys, ys.length < 8 → P ys)
    (frame : ∀ xs ys, xs.length = 8 → P ys → P (xs ++ ys)) (ys : List Symbol) : P ys := by
  by_cases h : ys.length < 8
  · exact short ys h
  · rw [← List.take_append_drop 8 ys]
    exact frame _ _ (by simp; omega) (eightwise_induction short frame (ys.drop 8))
termination_by ys.length
decreasing_by simp; omega

theorem framesOf_length (ys : List Symbol) : (framesOf ys).length = ys.length / 8 := by
  induction ys using eightwise_induction with
  | short ys h => rw [framesOf_of_length_lt h, Nat.div_eq_of_lt h, List.length_nil]
  | frame xs ys h ih =>
    rw [framesOf_append h, List.length_cons, ih, List.length_append, h]
    omega

/-- Symbols that do not fill the cycle all wait. -/
theorem cutScript_of_length_lt (ys : List Symbol) {held : List Symbol} (h : held.length + ys.length < 8) :
    cutScript held (ys.map .sym) = ([], held ++ ys) := by
  induction ys generalizing held with
  | nil => simp [cutScript]
  | cons y ys ih =>
    rw [List.length_cons] at h
    rw [List.map_cons, cutScript, if_neg (by omega), ih (by simp; omega), List.append_assoc, List.singleton_append]

/-- Eight symbols from a frame boundary go out as their frame. -/
theorem cutScript_eight {xs : List Symbol} (h : xs.length = 8) :
    cutScript [] (xs.map .sym) = ([.busTransfer (frameOf xs)], []) := by
  cases xs with
  | nil => simp at h
  | cons x xs => exact cutScript_fill x xs [] (by rw [List.length_nil, Nat.zero_add, h])

/-- From a frame boundary a stream is cut into its frames, and what is left of it waits (20_memory.md R57). -/
theorem cutScript_symbols (ys : List Symbol) :
    cutScript [] (ys.map .sym) = ((framesOf ys).map .busTransfer, ys.drop (ys.length / 8 * 8)) := by
  induction ys using eightwise_induction with
  | short ys h =>
    rw [cutScript_of_length_lt ys (by simpa using h), framesOf_of_length_lt h, Nat.div_eq_of_lt h]
    simp
  | frame xs ys h ih =>
    have hlen : (xs ++ ys).length / 8 * 8 = xs.length + ys.length / 8 * 8 := by
      rw [List.length_append, h]
      omega
    rw [List.map_append, cutScript_append, cutScript_eight h, ih, framesOf_append h, hlen,
      List.drop_length_add_append]
    rfl

theorem countP_map_busTransfer (bs : List Frame) :
    (bs.map Event.busTransfer).countP Event.isTransfer = bs.length := by
  rw [List.countP_map]
  exact congrFun List.countP_true bs

/-- Settles O19: the requests run as the script of their symbols, which `cutScript_symbols` cuts into frames. -/
theorem submitsAreCutIntoFrames : Obligations.SubmitsAreCutIntoFrames := by
  intro ys s rest hh hs ha hr
  have hcut := cutScript_symbols ys
  obtain ⟨b, p, k, hscript, hholds, -⟩ :=
    runScript_holds (ys.map .sym) s [] ((State.holds_nil_iff s).2 hs)
      (by rw [hcut, countP_map_busTransfer, framesOf_length]; exact ha)
  rw [hcut] at hscript hholds
  have hrun := run_submits hh hscript rest s.statuses
  rw [← hr] at hrun
  have ⟨_, hk, _⟩ := hholds
  refine ⟨_, hrun, rfl, framesOf_length ys, ?_, hholds, rfl⟩
  refine hk.trans ?_
  rw [List.length_drop]
  omega

/-! ### FLUSH -/

theorem flush_of_bitOffset_zero {s : State} (h : s.bitOffset = 0) : flush s = .going s := by
  rw [flush_eq_runScript, h]
  rfl

theorem exec_flush_of_bitOffset_zero {s : State} (h : s.bitOffset = 0) :
    exec .flush s = .next { s with statuses := s.statuses ++ [.ok] } := by
  show Host.Outcome.next (flush s).finish = _
  rw [flush_of_bitOffset_zero h]
  rfl

/-- A FLUSH that returned, with whatever status, left `k = 0`, and `prev` clear if it was so at a boundary. -/
theorem boundary_of_exec_flush {s t : State} (h : exec .flush s = .next t) (hreturned : t.hung = false) :
    t.bitOffset = 0 ∧ ((s.bitOffset = 0 → s.previousSymbol = 0x00#8) → t.previousSymbol = 0x00#8) := by
  obtain rfl := Host.Outcome.next.inj h
  have hwork := flush_work s
  have hk := flush_bitOffset s
  cases hr : flush s with
  | going u =>
    rw [hr] at hwork hk
    obtain ⟨-, -, hprev⟩ := hwork
    exact ⟨hk, fun hs => hprev hs hk⟩
  | raised c u =>
    rw [hr] at hwork
    obtain ⟨-, -, -, hzero, hprev⟩ := hwork
    exact ⟨hzero, fun _ => hprev⟩
  | stuck u =>
    rw [hr] at hreturned
    simp at hreturned

/-- Settles O20: the second FLUSH finds `k = 0`, where FLUSH does nothing. -/
theorem flushIsIdempotent : Obligations.FlushIsIdempotent := by
  refine ⟨fun _ => exec_flush_of_bitOffset_zero, fun s t h hreturned => ?_⟩
  obtain ⟨hk, -⟩ := boundary_of_exec_flush h hreturned
  exact exec_flush_of_bitOffset_zero hk

/-- Settles O22: FLUSH that goes on ends at `k = 0`, and one whose transfer fails is put there. -/
theorem flushEndsAtTheBoundary : Obligations.FlushEndsAtTheBoundary :=
  fun _ _ hs h hreturned => (boundary_of_exec_flush h hreturned).imp_right (· hs)

/-- Settles O53: `runScript_fails` of the padded script, whose events are those of the script and its FLUSH. -/
theorem scriptsStopAtTheFailingFrame : Obligations.ScriptsStopAtTheFailingFrame := by
  intro script s held n rest h ev hn ha
  have ⟨hlen, hcount, _⟩ := h
  have hcut := cutScript_paddedScript s.params.family script hlen
  have hrun := runScript_fails (paddedScript s.params.family held script) s held n rest h (by rw [hcut]; exact hn) ha
  rw [runThenFlush_eq_runScript script hcount, hrun, hcut]

theorem noOp_eq (f : Family) : noOp f = if f = .philips then 0x00#8 else 0x25#8 := by
  cases f <;> rfl

/-- The events of FLUSH alone, with symbols held: the one padded frame. -/
theorem operationEvents_nil_of_held_ne_nil {held : List Symbol} (f : Family) (h : held ≠ []) :
    operationEvents f held [] = [.busTransfer (frameOf (held ++
      List.replicate (8 - held.length) ⟨.command, if f = .philips then 0x00#8 else 0x25#8⟩))] := by
  rw [← noOp_eq]
  exact if_neg h

/-- Settles O21: FLUSH alone is the empty script and FLUSH, whose only event is the padded frame. -/
theorem flushPadsAndSendsOneFrame : Obligations.FlushPadsAndSendsOneFrame := by
  intro s held rest h hne b
  have hev : operationEvents s.params.family held [] = [.busTransfer b] := operationEvents_nil_of_held_ne_nil _ hne
  constructor
  · intro ha
    have hrun := scriptsRefineToWireFrames [] s held h
    simp only [hev] at hrun
    show Host.Outcome.next (runThenFlush [] s).finish = _
    rw [hrun (by simp [State.Answered, Event.isTransfer, ha])]
    simp [ha, Event.isTransfer, State.report, lastFrame]
  · intro ha
    have hrun := scriptsStopAtTheFailingFrame [] s held 0 rest h
    simp only [hev] at hrun
    show Host.Outcome.next (runThenFlush [] s).finish = _
    rw [hrun (by simp [Event.isTransfer]) ha]
    rfl

end Sys2Proof.Machine

/-! PROOFS. The pixel packer: PACK joins raw bytes in pairs from the front, so it splits at every even index
(41_pixel_packer.md R130 to R132). -/

namespace Sys2Proof.Machine

@[simp] theorem pack_nil : pack [] = [] := rfl

@[simp] theorem pack_singleton (a : Byte) : pack [a] = [a &&& 0xF0#8] := rfl

@[simp] theorem pack_cons_cons (a b : Byte) (rest : List Byte) :
    pack (a :: b :: rest) = ((a &&& 0xF0#8) ||| (b >>> 4)) :: pack rest := rfl

theorem length_pack (raw : List Byte) : (pack raw).length = (raw.length + 1) / 2 := by
  induction raw using pack.induct with
  | case1 a b rest ih => simp only [pack_cons_cons, List.length_cons, ih]; omega
  | case2 a => simp
  | case3 => rfl

/-- Pairs do not overlap: after an even number of bytes PACK begins a new pair. -/
theorem pack_append_of_even {raw : List Byte} (tail : List Byte) (heven : raw.length % 2 = 0) :
    pack (raw ++ tail) = pack raw ++ pack tail := by
  induction raw using pack.induct with
  | case1 a b rest ih =>
    have hrest : rest.length % 2 = 0 := by simp only [List.length_cons] at heven; omega
    simp [ih hrest]
  | case2 a => simp at heven
  | case3 => rfl

/-- Packed byte `j` is the first one of what is packed from raw byte `2j` on. -/
theorem getElem?_pack {raw : List Byte} {j : Nat} (hj : 2 * j ≤ raw.length) :
    (pack raw)[j]? = (pack (raw.drop (2 * j))).head? := by
  have hlen : (raw.take (2 * j)).length = 2 * j := List.length_take_of_le hj
  have hpacked : (pack (raw.take (2 * j))).length = j := by rw [length_pack, hlen]; omega
  have hsplit : pack raw = pack (raw.take (2 * j)) ++ pack (raw.drop (2 * j)) := by
    rw [← pack_append_of_even _ (by omega), List.take_append_drop]
  rw [hsplit, List.getElem?_append_right hpacked.le, hpacked, Nat.sub_self, List.head?_eq_getElem?]

theorem getElem?_pack_of_pair {raw : List Byte} {j : Nat} (hj : 2 * j + 1 < raw.length) :
    (pack raw)[j]? = some ((raw.getD (2 * j) 0 &&& 0xF0#8) ||| (raw.getD (2 * j + 1) 0 >>> 4)) := by
  rw [getElem?_pack (by omega), List.drop_eq_getElem_cons (by omega), List.drop_eq_getElem_cons hj, pack_cons_cons,
    List.head?_cons, List.getD_eq_getElem _ _ (by omega), List.getD_eq_getElem _ _ hj]

theorem getElem?_pack_of_odd {raw : List Byte} (hodd : raw.length % 2 = 1) :
    (pack raw)[raw.length / 2]? = some (raw.getD (raw.length - 1) 0 &&& 0xF0#8) := by
  have hlast : 2 * (raw.length / 2) = raw.length - 1 := by omega
  rw [getElem?_pack (by omega), hlast, List.drop_eq_getElem_cons (by omega), List.drop_of_length_le (by omega),
    pack_singleton, List.head?_cons, List.getD_eq_getElem _ _ (by omega)]

/-- Settles O23: the length by induction on pairs; each byte is the head of what is packed from its pair on. -/
theorem packJoinsHighNibbles : Obligations.PackJoinsHighNibbles :=
  fun raw => ⟨length_pack raw, fun _ => getElem?_pack_of_pair, getElem?_pack_of_odd,
    fun hraster => by rw [length_pack, hraster]⟩

/-- Settles O24: PACK begins a new pair after the even list, and a byte alone packs to its high nibble. -/
theorem packOddTail : Obligations.PackOddTail := by
  refine ⟨fun raw b heven => ⟨pack_append_of_even [b] heven, ?_⟩, rfl, pack_nil⟩
  have hmasks : 0xF0#8 &&& 0x0F#8 = 0#8 := rfl
  rw [BitVec.and_assoc, hmasks, BitVec.and_zero]

end Sys2Proof.Machine

/-! PROOFS. The session operations: INITIALIZE is the set-up of the bus and the line, then the family's power-up script
and FLUSH; CLOSE is the release of the pin and one call (42_session.md). -/

namespace Sys2Proof.Machine

/-! ### The calls that configure the bus -/

theorem transport_andThen_of_success {e : Event} {s : State} {rest : List Answer} (h : s.answers = .success :: rest)
    (f : State → Run) :
    (transport e s).andThen f = f { s with trace := s.trace ++ [e], answers := rest } := by
  rw [transport_of_success h, Run.going_andThen]

theorem transport_andThen_of_failure {e : Event} {s : State} {rest : List Answer} (h : s.answers = .failure :: rest)
    (f : State → Run) :
    (transport e s).andThen f = .raised .transportFailure
      { s with trace := s.trace ++ [e], answers := rest, bitOffset := 0, previousSymbol := 0x00#8, fault := true } := by
  rw [transport_of_failure h, Run.raised_andThen]

/-- The four calls in their order, all answered success (42_session.md R142). -/
theorem configureBus_of_success {s : State} {rest : List Answer} (h : s.answers = List.replicate 4 .success ++ rest) :
    configureBus s = .going
      { s with busOpen := true, trace := s.trace ++ (setUpEvents s.params).take 4, answers := rest } := by
  refine (transport_andThen_of_success h _).trans <| (transport_andThen_of_success rfl _).trans <|
    (transport_andThen_of_success rfl _).trans <| (transport_of_success rfl).trans ?_
  simp [setUpEvents, clockHz]

/-- Call number `n` of the four fails: the calls before it succeeded, and none follows (42_session.md R147). -/
theorem configureBus_of_failure {s : State} {n : Nat} {rest : List Answer} (hn : n < 4)
    (h : s.answers = List.replicate n .success ++ .failure :: rest) :
    configureBus s = .raised .transportFailure
      { s with
        bitOffset := 0, previousSymbol := 0x00#8, fault := true, busOpen := s.busOpen || decide (0 < n)
        trace := s.trace ++ (setUpEvents s.params).take (n + 1), answers := rest } := by
  match n, hn with
  | 0, _ =>
    refine (transport_andThen_of_failure h _).trans ?_
    simp [setUpEvents]
  | 1, _ =>
    refine (transport_andThen_of_success h _).trans <| (transport_andThen_of_failure rfl _).trans ?_
    simp [setUpEvents]
  | 2, _ =>
    refine (transport_andThen_of_success h _).trans <| (transport_andThen_of_success rfl _).trans <|
      (transport_andThen_of_failure rfl _).trans ?_
    simp [setUpEvents]
  | 3, _ =>
    refine (transport_andThen_of_success h _).trans <| (transport_andThen_of_success rfl _).trans <|
      (transport_andThen_of_success rfl _).trans <| (transport_of_failure rfl).trans ?_
    simp [setUpEvents, clockHz]

/-! ### INITIALIZE -/

/-- Settles O27: the test of the lifecycle comes before everything else. -/
theorem initializeRefusedWhenOperational : Obligations.InitializeRefusedWhenOperational :=
  fun _ hlife => congrArg (fun r => Host.Outcome.next (Run.finish r)) (if_pos hlife)

theorem exec_initializeSession_of_not_operational {s : State} (hlife : s.lifecycle ≠ .operational) :
    exec .initializeSession s = .next (powerUp s).finish :=
  congrArg (fun r => Host.Outcome.next (Run.finish r)) (if_neg hlife)

/-- Settles O28: the failing call ends the configuration of the bus, and nothing after it runs. -/
theorem initializeStopsAtTheFailingCall : Obligations.InitializeStopsAtTheFailingCall := by
  intro s n rest hlife hn ha
  rw [exec_initializeSession_of_not_operational hlife, powerUp, configureBus_of_failure hn ha]
  rfl

/-- The state in which INITIALIZE submits its first symbol: the bus is configured, the reset line is high, and `rest`
are the answers to come (42_session.md R140 steps 1 to 10). -/
def State.setUp (s : State) (rest : List Answer) : State :=
  { s with
    busOpen := true, pinState := .outHigh, trace := s.trace ++ setUpEvents s.params, answers := rest }

/-- With the bus configured, INITIALIZE is its script and FLUSH (42_session.md R140 steps 11 to 13). -/
theorem powerUp_of_success {s : State} {rest : List Answer} (h : s.answers = List.replicate 4 .success ++ rest) :
    powerUp s = (runThenFlush (powerUpScript s.params) (s.setUp rest)).andThen fun t =>
      .going { t with lifecycle := .operational } := by
  rw [powerUp, configureBus_of_success h, Run.going_andThen, resetPulse_eq]
  simp [State.setUp, setUpEvents]

/-- Settles O54: the set-up does not touch the framer, so the script that follows fails as any script does. -/
theorem initializeStopsAtTheFailingFrame : Obligations.InitializeStopsAtTheFailingFrame := by
  intro s held n rest hlife h ev hn ha
  rw [List.replicate_add, List.append_assoc] at ha
  rw [exec_initializeSession_of_not_operational hlife, powerUp_of_success ha,
    scriptsStopAtTheFailingFrame _ (s.setUp _) held n rest h hn rfl]
  rfl

/-- A script that begins with a symbol does not depend on `prev` at `k = 0` (40_framer.md R111). -/
theorem runThenFlush_toBoundary {s : State} (h : s.bitOffset = 0) (y : Symbol) (script : List Item) :
    runThenFlush (.sym y :: script) s = runThenFlush (.sym y :: script) s.toBoundary := by
  simp only [runThenFlush, runScript, runItem, submitSymbol_toBoundary y h]

/-- Nor does each family's power-up script, which begins with a command (30_encoding.md R92, R93). -/
theorem runThenFlush_powerUpScript_toBoundary (p : Params) {s : State} (h : s.bitOffset = 0) :
    runThenFlush (powerUpScript p) s = runThenFlush (powerUpScript p) s.toBoundary := by
  cases hfamily : p.family with
  | philips =>
    rw [powerUpScript, hfamily]
    exact runThenFlush_toBoundary h _ _
  | epson =>
    rw [powerUpScript, hfamily]
    exact runThenFlush_toBoundary h _ _

/-- The next `m + n` answers are successes: the first `m` of them, and `n` of those that then come. -/
theorem State.Answered.split {s : State} {m n : Nat} (h : s.Answered (m + n)) :
    s.answers = List.replicate m .success ++ s.answers.drop m ∧
      (s.answers.drop m).take n = List.replicate n .success := by
  have hfirst : s.answers.take m = List.replicate m .success := by
    rw [← Nat.min_eq_left (Nat.le_add_right m n), ← List.take_take, h, List.take_replicate]
  have hthen : (s.answers.drop m).take n = List.replicate n .success := by
    rw [List.take_drop, h, List.drop_replicate, Nat.add_sub_cancel_left]
  exact ⟨by rw [← hfirst, List.take_append_drop], hthen⟩

/-- INITIALIZE with every call answered success, in a session of either family: the set-up events, then the events of
the power-up script and its FLUSH (42_session.md R140, R145, R146). -/
theorem exec_initializeSession_of_success {s : State} {ev : List Event} (hlife : s.lifecycle ≠ .operational)
    (hk : s.bitOffset = 0) (hev : operationEvents s.params.family [] (powerUpScript s.params) = ev)
    (ha : s.Answered (4 + ev.countP Event.isTransfer)) :
    exec .initializeSession s = .next
      { s with
        bitOffset := 0, previousSymbol := 0x00#8, frameBuffer := lastFrame s.frameBuffer ev
        lifecycle := .operational, busOpen := true, pinState := .outHigh
        answers := s.answers.drop (4 + ev.countP Event.isTransfer), statuses := s.statuses ++ [.ok]
        trace := s.trace ++ setUpEvents s.params ++ ev } := by
  subst hev
  obtain ⟨hcalls, hframes⟩ := ha.split
  have hrun := scriptsRefineToWireFrames (powerUpScript s.params) (s.setUp (s.answers.drop 4)).toBoundary []
    ((State.holds_nil_iff _).2 ⟨rfl, rfl⟩) hframes
  rw [exec_initializeSession_of_not_operational hlife, powerUp_of_success hcalls,
    runThenFlush_powerUpScript_toBoundary s.params (s := s.setUp _) hk, hrun, ← List.drop_drop]
  rfl

/-- Settles O25: the Philips script, cut into frames from a boundary, gives one frame, the delay and one frame. -/
theorem initializePhilips : Obligations.InitializePhilips := by
  intro s hlife hfamily hk ha m f1 f2
  have hev : operationEvents s.params.family [] (powerUpScript s.params) =
      [.busTransfer f1, .delay .phInit, .busTransfer f2] := by
    rw [powerUpScript, hfamily]
    rfl
  exact exec_initializeSession_of_success hlife hk hev ha

/-- Settles O26: the Epson script, cut into frames from a boundary, gives two frames, the delay and one frame. -/
theorem initializeEpson : Obligations.InitializeEpson := by
  intro s hlife hfamily hk ha m f1 f2 f3
  have hev : operationEvents s.params.family [] (powerUpScript s.params) =
      [.busTransfer f1, .busTransfer f2, .delay .epInit, .busTransfer f3] := by
    rw [powerUpScript, hfamily]
    rfl
  exact exec_initializeSession_of_success hlife hk hev ha

/-! ### CLOSE -/

/-- Settles O29: the pin is released first, and the session is Closed whatever the one call answers. -/
theorem closeReleasesPinAndBus : Obligations.CloseReleasesPinAndBus := by
  intro s rest hlife
  have hexec : exec .close s = .next (release s).finish :=
    congrArg (fun r => Host.Outcome.next (Run.finish r)) (guarded_of_operational hlife release)
  rw [hexec]
  constructor
  · intro ha
    have hcall := transport_of_success (e := .busClose)
      (s := { s.emit .pinsReleased with pinState := .unconfigured }) ha
    rw [release, hcall]
    simp [Run.onReturn, State.report]
  · intro ha
    have hcall := transport_of_failure (e := .busClose)
      (s := { s.emit .pinsReleased with pinState := .unconfigured }) ha
    rw [release, hcall]
    simp [Run.onReturn, State.report]

end Sys2Proof.Machine


/-! PROOFS. The panel operations: DISPLAY, TURN_OFF, TURN_ON and the rotations of an Operational session are each one
script and FLUSH, so what they send is how their script is cut into frames (43_display_power_rotate.md). -/

namespace Sys2Proof.Machine

/-! ### The operations as scripts -/

/-- In the state `s` the instruction is `run(script); FLUSH()` and nothing else (30_encoding.md R99). -/
def RunsAsScript (i : Instr) (s : State) (script : List Item) : Prop :=
  exec i s = .next (runThenFlush script s).finish

/-- An instruction that finishes a run of its script and FLUSH. -/
theorem RunsAsScript.of_run {i : Instr} {s : State} {script : List Item} {r : Run} (hexec : exec i s = .next r.finish)
    (hr : r = runThenFlush script s) : RunsAsScript i s script := by
  rw [RunsAsScript, hexec, hr]

/-- The four rotations with their orientation bytes (43_display_power_rotate.md R172 to R175). -/
def rotations : List (Instr × Byte) :=
  [(.rotateNone, 0x10#8), (.rotate180, 0xC0#8), (.rotate90cw, 0x70#8), (.rotate90ccw, 0xB0#8)]

section
variable {s : State} (hlife : s.lifecycle = .operational)
include hlife

theorem turnOff_runsAsScript : RunsAsScript .turnOff s (turnOffScript s.params) :=
  .of_run rfl (guarded_of_operational hlife _)

theorem turnOn_runsAsScript : RunsAsScript .turnOn s (turnOnScript s.params) :=
  .of_run rfl (guarded_of_operational hlife _)

theorem rotate_of_philips (hfamily : s.params.family = .philips) (b : Byte) :
    rotate b s = runThenFlush (rotationScript s.params.philips b) s := by
  rw [rotate, hfamily]
  exact guarded_of_operational hlife _

/-- The rotations differ in their orientation byte only. -/
theorem rotation_runsAsScript (hfamily : s.params.family = .philips) :
    ∀ q ∈ rotations, RunsAsScript q.1 s (rotationScript s.params.philips q.2) := by
  have hrotate := rotate_of_philips hlife hfamily
  simp only [rotations, List.forall_mem_cons]
  exact ⟨.of_run rfl (hrotate _), .of_run rfl (hrotate _), .of_run rfl (hrotate _), .of_run rfl (hrotate _),
    List.forall_mem_nil _⟩

theorem display_runsAsScript {raw : List Byte} (hraw : raw.length = Config.rasterBytes) :
    RunsAsScript (.display raw) s (displayScript s.params raw) :=
  .of_run (if_neg fun ⟨_, hother⟩ => hother hraw) (guarded_of_operational hlife _)

end

namespace RunsAsScript

variable {i : Instr} {s : State} {script : List Item} {ev : List Event}

/-- With every transfer answered success, the instruction leaves the events of its script and returns Ok. -/
theorem of_success {held : List Symbol} (hrun : RunsAsScript i s script) (h : s.Holds held)
    (hev : operationEvents s.params.family held script = ev) (ha : s.Answered (ev.countP Event.isTransfer)) :
    exec i s = .next
      { s with
        frameBuffer := lastFrame s.frameBuffer ev, bitOffset := 0, previousSymbol := 0x00#8, trace := s.trace ++ ev
        answers := s.answers.drop (ev.countP Event.isTransfer), statuses := s.statuses ++ [.ok] } := by
  subst hev
  rw [hrun, scriptsRefineToWireFrames script s held h ha]
  rfl

/-- When transfer number `n` fails, the instruction leaves the events up to it and returns TransportFailure
(60_exceptions.md R197). -/
theorem of_failure {held : List Symbol} {n : Nat} {rest : List Answer} (hrun : RunsAsScript i s script)
    (h : s.Holds held) (hev : operationEvents s.params.family held script = ev)
    (hn : n < ev.countP Event.isTransfer) (ha : s.answers = List.replicate n .success ++ .failure :: rest) :
    exec i s = .next
      { s with
        frameBuffer := lastFrame s.frameBuffer (throughTransfer n ev), bitOffset := 0, previousSymbol := 0x00#8
        fault := true, trace := s.trace ++ throughTransfer n ev, answers := rest
        statuses := s.statuses ++ [.transportFailure] } := by
  subst hev
  rw [hrun, scriptsStopAtTheFailingFrame script s held n rest h hn ha]
  rfl

/-- An instruction that makes one transfer from `k = 0`. Its script begins with a symbol, so `prev` does not matter
(40_framer.md R111). -/
theorem of_one_transfer {rest : List Answer} (hrun : RunsAsScript i s script)
    (hbegins : ∃ y script', script = .sym y :: script') (hk : s.bitOffset = 0)
    (hev : operationEvents s.params.family [] script = ev) (hone : ev.countP Event.isTransfer = 1)
    (ha : s.answers = .success :: rest) :
    exec i s = .next
      { s with
        frameBuffer := lastFrame s.frameBuffer ev, bitOffset := 0, previousSymbol := 0x00#8, trace := s.trace ++ ev
        answers := rest, statuses := s.statuses ++ [.ok] } := by
  subst hev
  obtain ⟨y, script', rfl⟩ := hbegins
  have hframes := scriptsRefineToWireFrames (.sym y :: script') s.toBoundary []
    ((State.holds_nil_iff _).2 ⟨rfl, rfl⟩)
  simp only [State.toBoundary_params, State.Answered, State.toBoundary_answers, hone, ha] at hframes
  rw [hrun, runThenFlush_toBoundary hk, hframes rfl]
  rfl

end RunsAsScript

/-! ### The bytes of a frame -/

/-- A shift to the left by `8 - n` drops all but the low `n` bits. -/
theorem lowBits_shiftLeft (x : Byte) (n : Nat) :
    (x &&& BitVec.ofNat 8 (2 ^ n - 1)) <<< (8 - n) = x <<< (8 - n) := by
  apply BitVec.eq_of_getLsbD_eq
  intro p hp
  rw [BitVec.getLsbD_shiftLeft, BitVec.getLsbD_shiftLeft]
  by_cases hlow : p < 8 - n
  · simp [hlow]
  · have hmask : (BitVec.ofNat 8 (2 ^ n - 1)).getLsbD (p - (8 - n)) = true := by
      simp [BitVec.getLsbD_ofNat, Nat.testBit_two_pow_sub_one]
      omega
    rw [BitVec.getLsbD_and, hmask, Bool.and_true]

/-- The frame of a command, one more symbol and six Philips no-ops. -/
theorem frameOf_command_symbol (x : Byte) (z : Symbol) :
    frameOf ([⟨.command, x⟩, z] ++ List.replicate 6 ⟨.command, 0x00#8⟩) =
      #v[x >>> 1, ((x &&& 1#8) <<< 7) ||| ((if z.flag = .data then 0x40#8 else 0#8) ||| (z.data >>> 2)),
        (z.data &&& 3#8) <<< 6, 0#8, 0#8, 0#8, 0#8, 0#8, 0#8] := by
  have hx : (x &&& 1#8) <<< 7 = x <<< 7 := lowBits_shiftLeft x 1
  have hz : (z.data &&& 3#8) <<< 6 = z.data <<< 6 := lowBits_shiftLeft z.data 2
  have hflag : (if z.flag = .data then 0x40#8 else 0#8) = (if z.flag = .data then 1#8 else 0#8) <<< 6 := by
    split <;> rfl
  refine (frameOf_eight _ _ _ _ _ _ _ _).trans ?_
  rw [hx, hz, hflag]
  simp [transportByte_eq_or, BitVec.or_assoc]

/-! ### TURN_OFF, TURN_ON and the rotations -/

/-- Settles O32: the orientation byte is the data symbol behind the command, whose flag is bit 6 of the second byte. -/
theorem rotationsSendTheirFrame : Obligations.RotationsSendTheirFrame := by
  have horientation :
      ∀ p ∈ [(Instr.rotateNone, 0x44#8), (.rotate180, 0x70#8), (.rotate90cw, 0x5C#8), (.rotate90ccw, 0x6C#8)],
        ∃ q ∈ rotations, q.1 = p.1 ∧ 0x40#8 ||| (q.2 >>> 2) = p.2 ∧ (q.2 &&& 3#8) <<< 6 = 0#8 := by decide
  intro p hp s rest hfamily hlife hk ha m b
  obtain ⟨q, hq, hinstr, hbyte, hlow⟩ := horientation p hp
  have hframe : frameOf ([⟨.command, m⟩, ⟨.data, q.2⟩] ++ List.replicate 6 ⟨.command, 0x00#8⟩) = b := by
    rw [frameOf_command_symbol, if_pos rfl, hbyte, hlow]
  have hev : operationEvents s.params.family [] (rotationScript s.params.philips q.2) = [.busTransfer b] := by
    rw [hfamily, ← hframe]
    rfl
  rw [← hinstr]
  exact (rotation_runsAsScript hlife hfamily q hq).of_one_transfer ⟨_, _, rfl⟩ hk hev rfl ha

/-- Settles O33: on a Philips session the two commands fill the first three bytes; an Epson session's frame is fixed by
its literals. -/
theorem turnOffSendsItsFrame : Obligations.TurnOffSendsItsFrame := by
  intro s rest hlife hk ha x y b
  have hev : operationEvents s.params.family [] (turnOffScript s.params) = [.busTransfer b] := by
    cases hfamily : s.params.family with
    | philips =>
      have hframe := frameOf_command_symbol x ⟨.command, y⟩
      rw [if_neg Flag.noConfusion, BitVec.zero_or] at hframe
      simp only [b, turnOffScript, hfamily, ← hframe]
      rfl
    | epson =>
      simp only [b, turnOffScript, hfamily]
      decide
  have hbegins : ∃ z script, turnOffScript s.params = .sym z :: script := by
    cases hfamily : s.params.family <;> simp [turnOffScript, hfamily, cmd]
  exact (turnOff_runsAsScript hlife).of_one_transfer hbegins hk hev rfl ha

/-- Settles O34: the delay is an event at once, and the three commands wait for FLUSH. -/
theorem turnOnPhilipsDelaysThenSends : Obligations.TurnOnPhilipsDelaysThenSends := by
  intro s rest hfamily hlife hk ha m b
  have hscript : turnOnScript s.params = [cmd m.sleepout, cmd m.bstron, .wait .phWake, cmd m.dispon] := by
    rw [turnOnScript, hfamily]
  have hev : operationEvents s.params.family [] (turnOnScript s.params) = [.delay .phWake, .busTransfer b] := by
    rw [hscript, hfamily]
    rfl
  exact (turnOn_runsAsScript hlife).of_one_transfer ⟨_, _, hscript⟩ hk hev rfl ha

/-- Settles O35: the script's shape is `turnOnScript`'s, so its events are those of cutting it into frames. -/
theorem turnOnEpsonRunsItsScript : Obligations.TurnOnEpsonRunsItsScript := by
  intro s hfamily hlife hs script ev ha
  have hscript : turnOnScript s.params = script := by
    rw [turnOnScript, hfamily]
    rfl
  have hev : operationEvents s.params.family [] (turnOnScript s.params) = ev := by rw [hfamily, hscript]
  have hrun := (turnOn_runsAsScript hlife).of_success ((State.holds_nil_iff s).2 hs) hev ha
  obtain ⟨hk, hprev⟩ := hs
  rw [hrun, hk, hprev]

/-- Settles O55: each of the operations is its script and FLUSH, and any script stops at the failing frame. -/
theorem panelOperationsStopAtTheFailingFrame : Obligations.PanelOperationsStopAtTheFailingFrame := by
  intro s held n rest hlife h p hp hphilips ev hn ha
  have hrun : RunsAsScript p.1 s p.2 := by
    have hrotation := fun hrot => rotation_runsAsScript hlife (hphilips hrot)
    simp only [List.mem_cons, List.not_mem_nil, or_false] at hp
    obtain rfl | rfl | rfl | rfl | rfl | rfl := hp
    · exact turnOff_runsAsScript hlife
    · exact turnOn_runsAsScript hlife
    · exact hrotation rfl (.rotateNone, 0x10#8) (by decide)
    · exact hrotation rfl (.rotate180, 0xC0#8) (by decide)
    · exact hrotation rfl (.rotate90cw, 0x70#8) (by decide)
    · exact hrotation rfl (.rotate90ccw, 0xB0#8) (by decide)
  exact hrun.of_failure h rfl hn ha

/-! ### DISPLAY -/

/-- Settles O40: the lifecycle guard passes, and the length test refuses (log 12). -/
theorem displayRefusesAnotherLength : Obligations.DisplayRefusesAnotherLength :=
  fun _ _ hlife hraw => if_pos ⟨hlife, hraw⟩

/-- What DISPLAY submits before the pixels: the address window and the memory-write command (30_encoding.md R94). -/
def windowSymbols (p : Params) : List Symbol :=
  [⟨.command, casetOf p⟩, ⟨.data, 0x00#8⟩, ⟨.data, 0x83#8⟩, ⟨.command, pasetOf p⟩, ⟨.data, 0x00#8⟩, ⟨.data, 0x83#8⟩,
   ⟨.command, ramwrOf p⟩]

/-- The packed bytes of a raster as data symbols (30_encoding.md R94). -/
def pixelSymbols (raw : List Byte) : List Symbol := (pack raw).map fun b => ⟨.data, b⟩

theorem displayScript_eq_symbols (p : Params) (raw : List Byte) :
    displayScript p raw = (windowSymbols p ++ pixelSymbols raw).map .sym := by
  simp only [displayScript, windowSymbols, pixelSymbols, List.map_append, List.map_map]
  rfl

theorem displaySymbols_eq (p : Params) (raw : List Byte) :
    displaySymbols p raw = windowSymbols p ++ pixelSymbols raw ++ [⟨.command, noOp p.family⟩] := by
  rw [noOp_eq]
  rfl

theorem length_window_pixels (p : Params) {raw : List Byte} (hraw : raw.length = 52272) :
    (windowSymbols p ++ pixelSymbols raw).length = 26143 := by
  simp [windowSymbols, pixelSymbols, length_pack, hraw]

theorem length_framesOf_displaySymbols (p : Params) {raw : List Byte} (hraw : raw.length = 52272) :
    (framesOf (displaySymbols p raw)).length = 3268 := by
  rw [framesOf_length, displaySymbols_eq, List.length_append, length_window_pixels p hraw, List.length_singleton]

/-- A stream of symbols and its FLUSH, from a frame boundary: the frames of the stream filled up with no-op commands
(20_memory.md R57). -/
theorem operationEvents_symbols (f : Family) (ys : List Symbol) :
    operationEvents f [] (ys.map .sym) =
      (framesOf (ys ++ List.replicate ((8 - ys.length % 8) % 8) ⟨.command, noOp f⟩)).map .busTransfer := by
  have hheld : (ys.drop (ys.length / 8 * 8)).length = ys.length % 8 := by
    rw [List.length_drop]
    omega
  have hcut := cutScript_paddedScript f (ys.map .sym) (held := []) (by decide)
  rw [paddedScript, cutScript_symbols, hheld, flushPadding, ← List.map_append, cutScript_symbols] at hcut
  exact (congrArg Prod.fst hcut).symm

/-- DISPLAY and its FLUSH put the frames of `displaySymbols` on the bus (43_display_power_rotate.md R160, R164). -/
theorem operationEvents_displayScript (p : Params) {raw : List Byte} (hraw : raw.length = 52272) :
    operationEvents p.family [] (displayScript p raw) = (framesOf (displaySymbols p raw)).map .busTransfer := by
  rw [displayScript_eq_symbols, operationEvents_symbols, length_window_pixels p hraw, displaySymbols_eq]
  rfl

/-- Settles O36: the script is the window, the command and the pixels, and one no-op fills the last frame. -/
theorem displaySendsTheRaster : Obligations.DisplaySendsTheRaster := by
  intro s raw hlife hs hraw ha ev
  have hlen := length_framesOf_displaySymbols s.params hraw
  have hcount : ev.countP Event.isTransfer = 3268 := (countP_map_busTransfer _).trans hlen
  have hdone := (display_runsAsScript hlife hraw).of_success ((State.holds_nil_iff s).2 hs)
    (operationEvents_displayScript s.params hraw) (by rw [hcount]; exact ha)
  obtain ⟨hk, hprev⟩ := hs
  refine ⟨(List.length_map _).trans hlen, by rw [length_pack, hraw], ?_⟩
  rw [hdone, hcount, hk, hprev]

/-- Where every event is a transfer, the events through transfer number `n` are the first `n + 1`. -/
theorem throughTransfer_map_busTransfer (n : Nat) (bs : List Frame) :
    throughTransfer n (bs.map .busTransfer) = (bs.take (n + 1)).map .busTransfer := by
  induction bs generalizing n with
  | nil => rfl
  | cons b bs ih =>
    cases n with
    | zero => rfl
    | succ n => rw [List.map_cons, throughTransfer_succ, ih, List.take_succ_cons, List.map_cons]

/-- Settles O39: DISPLAY's script stops at the failing frame, and every event of it is a frame. -/
theorem displayStopsAtTheFailingFrame : Obligations.DisplayStopsAtTheFailingFrame := by
  intro s raw n rest hlife hs hraw hn ha ev
  have hcount := (countP_map_busTransfer _).trans (length_framesOf_displaySymbols s.params hraw)
  have hdone := (display_runsAsScript hlife hraw).of_failure ((State.holds_nil_iff s).2 hs)
    (operationEvents_displayScript s.params hraw) (by rw [hcount]; exact hn) ha
  obtain ⟨hk, hprev⟩ := hs
  rw [hdone, throughTransfer_map_busTransfer, hk, hprev]

/-! ### The frames of DISPLAY -/

/-- The first frame of DISPLAY holds the window, the command and the first packed byte (43_display_power_rotate.md
R163). -/
theorem framesOf_displaySymbols (p : Params) (x y : Byte) (raw : List Byte) :
    framesOf (displaySymbols p (x :: y :: raw)) =
      frameOf (windowSymbols p ++ [⟨.data, (x &&& 0xF0#8) ||| (y >>> 4)⟩]) ::
        framesOf (pixelSymbols raw ++ [⟨.command, noOp p.family⟩]) := by
  rw [displaySymbols_eq, ← framesOf_append rfl]
  rfl

/-- The frame of an address window, the memory-write command and one packed byte. -/
theorem frameOf_window_pixel (a c r b : Byte) :
    frameOf [⟨.command, a⟩, ⟨.data, 0x00#8⟩, ⟨.data, 0x83#8⟩, ⟨.command, c⟩, ⟨.data, 0x00#8⟩, ⟨.data, 0x83#8⟩,
        ⟨.command, r⟩, ⟨.data, b⟩] =
      #v[a >>> 1, ((a &&& 1#8) <<< 7) ||| 0x40#8, 0x30#8, 0x60#8 ||| (c >>> 4), ((c &&& 0x0F#8) <<< 4) ||| 0x08#8,
        0x06#8, 0x0C#8 ||| (r >>> 7), (r <<< 1) ||| 0x01#8, b] := by
  have ha : (a &&& 1#8) <<< 7 = a <<< 7 := lowBits_shiftLeft a 1
  have hc : (c &&& 0x0F#8) <<< 4 = c <<< 4 := lowBits_shiftLeft c 4
  have hb : b >>> 8 = 0#8 := BitVec.ushiftRight_eq_zero (Nat.le_refl 8)
  rw [frameOf_eight, ha, hc]
  simp [transportByte_eq_or, hb]

/-- Settles O37: the first frame carries the window, the command and the pixels of the first two raw bytes. -/
theorem displayFirstFrame : Obligations.DisplayFirstFrame := by
  intro p x y raw a c r
  rw [framesOf_displaySymbols]
  exact congrArg some (frameOf_window_pixel a c r _)

theorem pack_replicate (n : Nat) (b : Byte) :
    pack (List.replicate (2 * n) b) = List.replicate n ((b &&& 0xF0#8) ||| (b >>> 4)) := by
  induction n with
  | zero => rfl
  | succ n ih => rw [Nat.mul_succ, List.replicate_succ, List.replicate_succ, pack_cons_cons, ih, List.replicate_succ]

theorem framesOf_replicate_append (n : Nat) (y : Symbol) (ys : List Symbol) :
    framesOf (List.replicate (8 * n) y ++ ys) = List.replicate n (frameOf (List.replicate 8 y)) ++ framesOf ys := by
  induction n with
  | zero => rfl
  | succ n ih =>
    rw [Nat.mul_succ, Nat.add_comm, List.replicate_add, List.append_assoc, framesOf_append List.length_replicate, ih,
      List.replicate_succ (n := n), List.cons_append]

/-- Settles O38: behind the first frame come 26135 black pixel symbols and the no-op, eight of them to a frame. -/
theorem displayAllBlack : Obligations.DisplayAllBlack := by
  intro p
  have hraster : List.replicate 52272 (0x00#8 : Byte) = 0x00#8 :: 0x00#8 :: List.replicate (2 * 26135) 0x00#8 := rfl
  have hpixels : pixelSymbols (List.replicate (2 * 26135) 0x00#8) =
      List.replicate (8 * 3266) ⟨.data, 0x00#8⟩ ++ List.replicate 7 ⟨.data, 0x00#8⟩ := by
    rw [pixelSymbols, pack_replicate, List.map_replicate, ← List.replicate_add]
    rfl
  have hinner : frameOf (List.replicate 8 ⟨.data, 0x00#8⟩) =
      #v[0x80#8, 0x40#8, 0x20#8, 0x10#8, 0x08#8, 0x04#8, 0x02#8, 0x01#8, 0x00#8] := by decide
  have hlast : framesOf (List.replicate 7 ⟨.data, 0x00#8⟩ ++ [⟨.command, noOp p.family⟩]) =
      [#v[0x80#8, 0x40#8, 0x20#8, 0x10#8, 0x08#8, 0x04#8, 0x02#8, 0x00#8,
        if p.family = .philips then 0x00#8 else 0x25#8]] := by
    cases p.family <;> decide
  rw [hraster, framesOf_displaySymbols, hpixels, List.append_assoc, framesOf_replicate_append, hinner, hlast]
  exact ⟨_, rfl⟩

end Sys2Proof.Machine


/-! PROOFS. Conditions: which operation returns which status, what a refusal and a transport failure leave, how the
lifecycle moves, and what a SUBMIT's transfer can do besides succeed (60_exceptions.md). -/

namespace Sys2Proof.Machine

/-! ### The status returned -/

/-- However an instruction that was not refused ended, the status it returned was Ok or TransportFailure. -/
theorem Ended.returned {i : Instr} {s t : State} {c : Status} (h : Ended i s t) (hc : t.statuses = s.statuses ++ [c]) :
    c = .ok ∨ c = .transportFailure := by
  cases h with
  | ok status => exact .inl (by simpa [status, eq_comm] using hc)
  | failed status => exact .inr (by simpa [status, eq_comm] using hc)
  | stuck status => simp [status] at hc

/-- An instruction that returned another condition was refused before it did anything (60_exceptions.md R196). -/
theorem refused_of_returned {i : Instr} {s t : State} {c : Status} (h : exec i s = .next t)
    (hc : t.statuses = s.statuses ++ [c]) (hok : c ≠ .ok) (hfailure : c ≠ .transportFailure) :
    Refuses i s c ∧ t = s.report c := by
  obtain ⟨d, hd, rfl⟩ | ⟨-, -, -, ended⟩ := exec_cases h
  · obtain rfl : d = c := by simpa using hc
    exact ⟨hd, rfl⟩
  · rcases ended.returned hc with rfl | rfl
    · exact absurd rfl hok
    · exact absurd rfl hfailure

theorem Refuses.ne_ok {i : Instr} {s : State} {c : Status} (h : Refuses i s c) : c ≠ .ok := by
  rintro rfl
  cases h

theorem Refuses.ne_transportFailure {i : Instr} {s : State} {c : Status} (h : Refuses i s c) :
    c ≠ .transportFailure := by
  rintro rfl
  cases h

/-- Settles O47: the instruction was refused, and a refusal only returns its status. -/
theorem refusalsChangeNothing : Obligations.RefusalsChangeNothing := by
  intro i s t c h hc hok hfailure
  obtain ⟨-, rfl⟩ := refused_of_returned h hc hok hfailure
  rfl

/-- Settles O45: a refusal returns its condition, and of the three ends only the last returns nothing and hangs. -/
theorem oneStatusPerOperation : Obligations.OneStatusPerOperation := by
  intro i s t h hh
  obtain ⟨c, -, rfl⟩ | ⟨-, -, -, ended⟩ := exec_cases h
  · exact .inl ⟨hh, c, rfl⟩
  · cases ended with
    | ok status _ hung => exact .inl ⟨hung.trans hh, _, status⟩
    | failed status _ hung => exact .inl ⟨hung.trans hh, _, status⟩
    | stuck status _ hung => exact .inr ⟨hung, status⟩

/-! ### TransportFailure -/

/-- What an instruction leaves that returned TransportFailure (60_exceptions.md R197, D7). -/
theorem boundary_of_transportFailure {i : Instr} {s t : State} (h : exec i s = .next t)
    (hc : t.statuses = s.statuses ++ [.transportFailure]) :
    t.fault = true ∧ t.AtBoundary ∧ t.lifecycle = (if i = .close then .closed else s.lifecycle) := by
  obtain ⟨c, hrefuses, rfl⟩ | ⟨-, -, -, ended⟩ := exec_cases h
  · exact absurd (by simpa using hc) hrefuses.ne_transportFailure
  · cases ended with
    | ok status => simp [status] at hc
    | failed _ fault _ boundary lifecycle => exact ⟨fault, boundary, lifecycle⟩
    | stuck status => simp [status] at hc

/-- Settles O48: only the end with TransportFailure sets the mark. -/
theorem transportFailureLeavesACleanBoundary : Obligations.TransportFailureLeavesACleanBoundary := by
  intro i s t h
  refine ⟨boundary_of_transportFailure h, fun hfault => ?_⟩
  obtain ⟨c, -, rfl⟩ | ⟨-, -, -, ended⟩ := exec_cases h
  · exact .inl hfault
  · cases ended with
    | ok _ fault => exact .inl (fault ▸ hfault)
    | failed status => exact .inr status
    | stuck _ fault => exact .inl (fault ▸ hfault)

/-- The framer's own port but for FLUSH: SUBMIT and the named symbols, which are SUBMIT at fixed symbols. -/
theorem opCode_of_not_sequencer {i : Instr} (hi : i.isSequencer = false) (hflush : i ≠ .flush) : i.opCode = 0x0#4 := by
  cases i with
  | submit | phNop | epNop | epDisoff | epSlpin | phRotNone | phRot180 | phRot90cw | phRot90ccw | addrLow | addrHigh
  | epDisctlLines => rfl
  | flush => exact absurd rfl hflush
  | initializeSession | display | turnOff | turnOn | rotateNone | rotate180 | rotate90cw | rotate90ccw | close =>
    simp [Instr.isSequencer] at hi

/-- FLUSH fails only with symbols pending: at `k = 0` it makes no transfer (40_framer.md R120). -/
theorem pending_of_flush_transportFailure {s t : State} (h : exec .flush s = .next t)
    (hc : t.statuses = s.statuses ++ [.transportFailure]) : s.bitOffset ≠ 0 := by
  intro hk
  rw [exec_flush_of_bitOffset_zero hk] at h
  cases h
  simp at hc

/-- SUBMIT, under whichever name, fails only at `k = 7`: before that it makes no transfer (40_framer.md R111). -/
theorem seven_of_submit_transportFailure {i : Instr} {s t : State} (h : exec i s = .next t)
    (hcode : i.opCode = 0x0#4) (hc : t.statuses = s.statuses ++ [.transportFailure]) : s.bitOffset = 7 := by
  by_contra h7
  rw [exec_of_opCode_zero hcode, exec_submit_of_lt _ (by omega)] at h
  cases h
  simp [State.afterMidSubmit] at hc

/-- What the lifecycle and the family were where TransportFailure was returned (60_exceptions.md R190). -/
theorem session_of_transportFailure {i : Instr} {s t : State} (h : exec i s = .next t)
    (hc : t.statuses = s.statuses ++ [.transportFailure]) :
    (i = .initializeSession → s.lifecycle ≠ .operational) ∧
      (i.isSequencer = true → i ≠ .initializeSession → s.lifecycle = .operational) ∧
      (i.isRotation = true → s.params.family = .philips) := by
  cases exec_kind h with
  | refused c hrefuses ht =>
    subst ht
    exact absurd (by simpa using hc) hrefuses.ne_transportFailure
  | framer hne _ hoper hphilips => exact ⟨fun hi => absurd hi hne, fun hi _ => hoper hi, hphilips⟩
  | powerUp hi hlife =>
    subst hi
    exact ⟨fun _ => hlife, fun _ hne => absurd rfl hne, nofun⟩
  | release hi hoper =>
    subst hi
    exact ⟨nofun, fun _ _ => hoper, nofun⟩

/-! ### Where each condition is raised -/

/-- Settles O46: `Refuses` lists the conditions raised first, and TransportFailure needs a transfer or a session call. -/
theorem conditionsAreRaisedWhereListed : Obligations.ConditionsAreRaisedWhereListed := by
  intro i s t c h hc
  refine ⟨?_, ?_, ?_, ?_, ?_, ?_⟩
  · rintro rfl
    obtain ⟨hrefuses, -⟩ := refused_of_returned h hc nofun nofun
    cases hrefuses with
    | inert hlife hi hne hphilips => exact ⟨hlife, hi, hne, hphilips⟩
  · rintro rfl
    obtain ⟨hrefuses, -⟩ := refused_of_returned h hc nofun nofun
    cases hrefuses with
    | closed hlife hi hne hphilips => exact ⟨hlife, hi, hne, hphilips⟩
  · rintro rfl
    obtain ⟨hrefuses, -⟩ := refused_of_returned h hc nofun nofun
    cases hrefuses with
    | family hi hepson => exact ⟨hi, hepson⟩
  · rintro rfl
    obtain ⟨hrefuses, -⟩ := refused_of_returned h hc nofun nofun
    cases hrefuses with
    | again hi hoper => exact ⟨hi, hoper⟩
  · rintro rfl
    obtain ⟨hinit, hseq, hrot⟩ := session_of_transportFailure h hc
    refine ⟨hinit, hseq, hrot, ?_, fun hi hflush => ?_⟩
    · rintro rfl
      exact pending_of_flush_transportFailure h hc
    · exact seven_of_submit_transportFailure h (opCode_of_not_sequencer hi hflush) hc
  · rintro rfl
    obtain ⟨hrefuses, -⟩ := refused_of_returned h hc nofun nofun
    cases hrefuses

/-! ### The lifecycle -/

/-- An INITIALIZE that returned Ok outside Operational (60_exceptions.md R204). -/
def OpensSession (i : Instr) (s t : State) : Prop :=
  i = .initializeSession ∧ s.lifecycle ≠ .operational ∧ t.statuses = s.statuses ++ [.ok]

/-- A CLOSE of an Operational session that returned (60_exceptions.md R204, D7). -/
def ClosesSession (i : Instr) (s t : State) : Prop :=
  i = .close ∧ s.lifecycle = .operational ∧
    (t.statuses = s.statuses ++ [.ok] ∨ t.statuses = s.statuses ++ [.transportFailure])

theorem OpensSession.not_closesSession {i : Instr} {s t : State} (h : OpensSession i s t) : ¬ ClosesSession i s t := by
  obtain ⟨rfl, -, -⟩ := h
  rintro ⟨hi, -, -⟩
  cases hi

/-- What an instruction does to the lifecycle: it opens the session, closes it, or leaves it where it was. -/
inductive LifecycleMove (i : Instr) (s t : State) : Prop where
  | opened (h : OpensSession i s t) (lifecycle : t.lifecycle = .operational)
  | closed (h : ClosesSession i s t) (lifecycle : t.lifecycle = .closed)
  | kept (hopens : ¬ OpensSession i s t) (hcloses : ¬ ClosesSession i s t) (lifecycle : t.lifecycle = s.lifecycle)

theorem Refuses.lifecycleMove {i : Instr} {s : State} {c : Status} (h : Refuses i s c) :
    LifecycleMove i s (s.report c) := by
  have hok := h.ne_ok
  have hfailure := h.ne_transportFailure
  refine .kept ?_ ?_ rfl
  · rintro ⟨-, -, status⟩
    exact hok (by simpa using status)
  · rintro ⟨-, -, status | status⟩
    · exact hok (by simpa using status)
    · exact hfailure (by simpa using status)

theorem Ended.lifecycleMove {i : Instr} {s t : State} (h : Ended i s t) : LifecycleMove i s t := by
  cases h with
  | ok status _ _ lifecycle _ close powerUp =>
    split_ifs at lifecycle with hinit hclose
    · exact .opened ⟨hinit, powerUp hinit, status⟩ lifecycle
    · obtain ⟨hoper, -, -⟩ := close hclose
      exact .closed ⟨hclose, hoper, .inl status⟩ lifecycle
    · exact .kept (fun ⟨hi, _⟩ => hinit hi) (fun ⟨hi, _⟩ => hclose hi) lifecycle
  | failed status _ _ _ lifecycle close =>
    split_ifs at lifecycle with hclose
    · exact .closed ⟨hclose, close hclose, .inr status⟩ lifecycle
    · exact .kept (fun ⟨_, _, hok⟩ => by simp [status] at hok) (fun ⟨hi, _⟩ => hclose hi) lifecycle
  | stuck status _ _ lifecycle =>
    exact .kept (fun ⟨_, _, hok⟩ => by simp [status] at hok) (fun ⟨_, _, hreturned⟩ => by simp [status] at hreturned)
      lifecycle

theorem exec_lifecycleMove {i : Instr} {s t : State} (h : exec i s = .next t) : LifecycleMove i s t := by
  obtain ⟨c, hrefuses, rfl⟩ | ⟨-, -, -, ended⟩ := exec_cases h
  · exact hrefuses.lifecycleMove
  · exact ended.lifecycleMove

/-- Settles O44: each of the three moves fixes the lifecycle, and neither opening nor closing ends Inert. -/
theorem lifecycleTransitionsAreComplete : Obligations.LifecycleTransitionsAreComplete := by
  intro i s t h
  cases exec_lifecycleMove h with
  | opened hopens lifecycle =>
    exact ⟨fun _ => lifecycle, fun hcloses => absurd hcloses hopens.not_closesSession,
      fun hnot => absurd hopens hnot, fun hinert => by simp [lifecycle] at hinert⟩
  | closed hcloses lifecycle =>
    exact ⟨fun hopens => absurd hcloses (OpensSession.not_closesSession hopens), fun _ => lifecycle,
      fun _ hnot => absurd hcloses hnot, fun hinert => by simp [lifecycle] at hinert⟩
  | kept hopens hcloses lifecycle =>
    exact ⟨fun hopened => absurd hopened hopens, fun hclosed => absurd hclosed hcloses, fun _ _ => lifecycle,
      fun hinert => lifecycle ▸ hinert⟩

/-! ### What the other operations leave alone -/

/-- From `s` to `t` the session, its parameters and the waiting requests are as they were, and the trace has grown by
transfers and delays only. -/
def LeavesSession (s t : State) : Prop :=
  t.lifecycle = s.lifecycle ∧ t.busOpen = s.busOpen ∧ t.pinState = s.pinState ∧ t.params = s.params ∧
    t.requests = s.requests ∧ ∃ ev, t.trace = s.trace ++ ev ∧ ∀ e ∈ ev, e.isTransfer = true ∨ ∃ d, e = .delay d

theorem FramerOnly.leavesSession {s t : State} (h : FramerOnly s t) : LeavesSession s t :=
  ⟨h.lifecycle, h.busOpen, h.pinState, h.params, h.requests, h.trace⟩

/-- Returning a status or waiting for ever changes nothing that `LeavesSession` speaks of. -/
theorem FramerWork.finish_leavesSession {s : State} {r : Run} (h : FramerWork s r) : LeavesSession s r.finish := by
  refine Run.Sat.finish (P := LeavesSession s) (Run.Sat.mono h ?_ ?_ ?_)
  · rintro t ⟨w, -⟩
    exact w.leavesSession
  · rintro c t ⟨-, w, -⟩
    exact w.leavesSession
  · rintro t ⟨w, -⟩
    exact w.leavesSession

/-- Settles O50: all that is left besides INITIALIZE and CLOSE is a refusal or framer work. -/
theorem onlySessionOperationsTouchBusAndPin : Obligations.OnlySessionOperationsTouchBusAndPin := by
  intro i s t h hinit hclose
  cases exec_kind h with
  | refused c _ ht => exact ht ▸ (FramerOnly.refl s).leavesSession
  | framer _ _ _ _ r hr _ ht => exact ht ▸ FramerWork.finish_leavesSession hr
  | powerUp hi => exact absurd hi hinit
  | release hi => exact absurd hi hclose

/-! ### The family test and the guard -/

/-- The rotations differ in their orientation byte only. -/
theorem exec_of_isRotation {i : Instr} (h : i.isRotation = true) : ∃ b, ∀ s, exec i s = .next (rotate b s).finish := by
  cases i with
  | rotateNone | rotate180 | rotate90cw | rotate90ccw => exact ⟨_, fun _ => rfl⟩
  | submit | flush | initializeSession | display | turnOff | turnOn | close | phNop | epNop | epDisoff | epSlpin
  | phRotNone | phRot180 | phRot90cw | phRot90ccw | addrLow | addrHigh | epDisctlLines =>
    simp [Instr.isRotation] at h

theorem rotate_of_epson {s : State} (h : s.params.family = .epson) (b : Byte) :
    rotate b s = .raised .unsupported s := by
  rw [rotate, h]

theorem rotate_eq_guarded {s : State} (h : s.params.family = .philips) (b : Byte) :
    rotate b s = guarded s (runThenFlush (rotationScript s.params.philips b)) := by
  rw [rotate, h]

/-- Settles O31: on an Epson session the family test ends the run, and only an Epson session is refused so. -/
theorem rotationUnsupportedExactlyOnEpson : Obligations.RotationUnsupportedExactlyOnEpson := by
  intro s i hi
  refine ⟨fun hepson => ?_, fun hphilips t h hc => ?_⟩
  · obtain ⟨b, hexec⟩ := exec_of_isRotation hi
    rw [hexec, rotate_of_epson hepson]
    rfl
  · obtain ⟨hrefuses, -⟩ := refused_of_returned h hc nofun nofun
    cases hrefuses with
    | family _ hepson => simp [hphilips] at hepson

/-- The operational calls: outside Operational each is the guard and a body (43_display_power_rotate.md, opening). -/
theorem exec_eq_guarded {s : State} {i : Instr}
    (hi : (∃ raw, i = .display raw) ∨ i = .turnOff ∨ i = .turnOn ∨ i = .close ∨
      (s.params.family = .philips ∧ i.isRotation = true))
    (hlife : s.lifecycle ≠ .operational) : ∃ body, exec i s = .next (guarded s body).finish := by
  obtain ⟨raw, rfl⟩ | rfl | rfl | rfl | ⟨hphilips, hrotation⟩ := hi
  · exact ⟨_, if_neg fun ⟨hoper, _⟩ => hlife hoper⟩
  · exact ⟨_, rfl⟩
  · exact ⟨_, rfl⟩
  · exact ⟨_, rfl⟩
  · obtain ⟨b, hexec⟩ := exec_of_isRotation hrotation
    exact ⟨_, by rw [hexec, rotate_eq_guarded hphilips]⟩

/-- Settles O30: each call is the guard and a body, and the guard ends the run before the body. -/
theorem guardAnswersOutsideOperational : Obligations.GuardAnswersOutsideOperational := by
  intro s i hi
  constructor
  · intro hlife
    obtain ⟨body, hexec⟩ := exec_eq_guarded hi (by simp [hlife])
    rw [hexec, guarded_of_inert hlife]
    rfl
  · intro hlife
    obtain ⟨body, hexec⟩ := exec_eq_guarded hi (by simp [hlife])
    rw [hexec, guarded_of_closed hlife]
    rfl

/-! ### The transfer of SUBMIT -/

/-- SUBMIT at `k = 7` is one transfer of the completed frame (40_framer.md R113). -/
theorem exec_submit_eq_transport {s : State} (f : Flag) (d : Byte) (h : s.bitOffset = 7) :
    exec (.submit f d) s = .next ((transport (.busTransfer (s.completedFrame ⟨f, d⟩)) (s.full ⟨f, d⟩)).andThen
      fun t => .going t.toBoundary).finish := by
  rw [← State.full_frameBuffer_eq_completedFrame, ← submitSymbol_of_seven _ h]
  rfl

theorem step_of_hung {s : State} (h : s.hung = true) : step s = .fault .transportHung := by
  simp [step, h]

/-- Settles O12: the call is recorded, the run is stuck, and a stuck block makes no further step. -/
theorem submitWhoseTransferNeverReturns : Obligations.SubmitWhoseTransferNeverReturns := by
  intro s f d rest h ha
  rw [exec_submit_eq_transport f d h, transport_of_noReturn (s := s.full ⟨f, d⟩) ha]
  exact ⟨_, rfl, rfl, rfl, rfl, step_of_hung rfl⟩

/-- Settles O13: the free value decides between the two ends of the one transfer. -/
theorem unlistedAnswerIsFree : Obligations.UnlistedAnswerIsFree := by
  intro s f d h ha
  rw [exec_submit_eq_transport f d h, transport_of_free (s := s.full ⟨f, d⟩) ha]
  have hbuffer := State.full_frameBuffer_eq_completedFrame s ⟨f, d⟩
  cases hfree : Config.freeAnswer s.drawn with
  | true =>
    rw [if_pos (show Config.freeAnswer (s.full ⟨f, d⟩).drawn = true from hfree)]
    exact ⟨_, rfl, rfl, rfl, rfl, hbuffer, rfl, .inl ⟨rfl, rfl, rfl⟩⟩
  | false =>
    rw [if_neg (show ¬ Config.freeAnswer (s.full ⟨f, d⟩).drawn = true by simp [State.full, hfree])]
    exact ⟨_, rfl, rfl, rfl, rfl, hbuffer, rfl, .inr ⟨rfl, rfl, rfl⟩⟩

end Sys2Proof.Machine


/-! PROOFS. The step that runs no request: the block waits (70_reset_and_hazards.md R221), or an earlier transport call
never returned (60_exceptions.md R214). -/

namespace Sys2Proof.Machine

theorem step_of_requests_nil {s : State} (hh : s.hung = false) (hr : s.requests = []) : step s = .next s := by
  simp [step, hh, hr]

/-- Settles O8: the mark `hung` decides first, and a block that is not hung waits on an empty line. -/
theorem stepWaitsOrIsStuck : Obligations.StepWaitsOrIsStuck :=
  ⟨fun _ => step_of_requests_nil, fun _ => step_of_hung⟩

end Sys2Proof.Machine
